-- ==== Sys2Proof/Word.lean ====
section
/-! DEFINITION. Word types of the TB1732 and their plainest arithmetic. -/

namespace Sys2Proof

/-- One byte of a frame, and every 8-bit field. -/
abbrev Byte := BitVec 8

/-- An unsigned 12-bit converter value, 0 to 4095 (00, 0.8 "Codes"). -/
abbrev Code := BitVec 12

/-- A tick counter value (R23). -/
abbrev Tick := BitVec 32

/-- A 16-bit field: periods, counts, sequence numbers. -/
abbrev Half := BitVec 16

/-- One more, stopping at the largest value (00, 0.8 "Counters"). -/
def satInc {w : Nat} (x : BitVec w) : BitVec w :=
  if x = BitVec.allOnes w then x else x + 1

/-- Sum of two counts, stopping at the largest value. -/
def satAdd {w : Nat} (x y : BitVec w) : BitVec w :=
  if x.toNat + y.toNat < 2 ^ w then x + y else BitVec.allOnes w

end Sys2Proof
end

