-- ==== Sys2Proof/Config.lean ====
section
/-! DEFINITION. The fixed capacities and constants of the TB1732. The spec leaves no value of the part open, so there is no free constant here. -/

namespace Sys2Proof.Config

/-- Slots of the history pool (R94). -/
abbrev poolSlots : Nat := 512

/-- Notices the queue holds (R111). -/
abbrev noticeCapacity : Nat := 24

/-- Notices that may be SENT at once (R132). -/
abbrev sendWindow : Nat := 4

/-- Frames the inbox holds (R160). -/
abbrev inboxCapacity : Nat := 4

/-- Entries the parked list holds (R163). -/
abbrev parkedCapacity : Nat := 4

/-- Replies the reply queue holds (R166). -/
abbrev replyCapacity : Nat := 8

/-- Retries at which a timeout sets MUTE (R139). -/
abbrev muteRetries : Nat := 4

/-- Nominal code of the internal reference (R51, R86). -/
abbrev referenceCode : Nat := 2458

/-- Check tolerance after a reset (R85). -/
abbrev defaultTolerance : Byte := 20

/-- Acknowledgement timeout after a reset (R130). -/
abbrev defaultAckTimeout : Byte := 32

/-- Largest payload of a frame (R147). -/
abbrev maxPayload : Nat := 56

/-- The synchronisation byte (R147). -/
abbrev sync : Byte := 0xC3

/-- KIND of a reply frame (R147). -/
abbrev kindReply : Byte := 0x81

/-- KIND of a notice frame (R147). -/
abbrev kindNotice : Byte := 0x82

/-- Quiet ticks at which a frame in progress is abandoned (R151). -/
abbrev quietLimit : Nat := 2

end Sys2Proof.Config
end

