-- ==== Sys2Proof/Syntax.lean ====
section
/-! DEFINITION. The commands of the block: one constructor per row of spec/opcode_table.json.
The table gives its rows no fields. A constructor has operands only where the outside world supplies a value at
that event; the fields of a host command come from its frame in the inbox (log 3). -/

namespace Sys2Proof

/-- Levels of the input pins at the end of a power or pin reset (R57, R146, R154). -/
structure ResetPins where
  /-- Strap RATE1 is high. -/
  rate1 : Bool
  /-- Strap RATE0 is high. -/
  rate0 : Bool
  /-- QUIESCE is asserted. -/
  quiesce : Bool
  /-- RXD is high. -/
  rxdHigh : Bool
  deriving DecidableEq, Repr

/-- The two ends of a power reset or of a RESET# pulse. Between them the part is held in reset (R125, R156; log 11). -/
inductive ResetEvent where
  /-- The supply fails or rises, or RESET# goes low. -/
  | begins
  /-- The reset ends with these levels on the pins. -/
  | ends (pins : ResetPins)
  deriving DecidableEq, Repr

/-- What the selected channel presents to the converter, in codes above VREFL; below 0 is below VREFL and above 4095
is above VREFH (R51, log 9). -/
abbrev Level := Int

/-- The commands of the block. -/
inductive Instr where
  /-- POWER_RESET: a power reset begins or ends. -/
  | powerReset (event : ResetEvent)
  /-- PIN_RESET: a RESET# pulse begins or ends. -/
  | pinReset (event : ResetEvent)
  /-- TICK: the 256th crystal period ends. -/
  | tick
  /-- DUE_CHECK: the due check of the tick. -/
  | dueCheck
  /-- NOTICE_TIMEOUT: the timeout examination of the tick. -/
  | noticeTimeout
  /-- GAP_ERROR: the receiver's examination of the tick. -/
  | gapError
  /-- RECEIPT: a good frame is handed on. -/
  | receipt
  /-- BREAK: RXD has been low for 20 bit times. -/
  | breakDetected
  /-- END_OF_BREAK: RXD returns high. -/
  | endOfBreak
  /-- QUIESCE_ASSERTED: the QUIESCE line goes high. -/
  | quiesceAsserted
  /-- QUIESCE_RELEASED: the QUIESCE line goes low. -/
  | quiesceReleased
  /-- TAKE: the engine takes the head of the due queue. -/
  | take
  /-- GATE_1_END: gate 1 ends, with the level of the channel. -/
  | gate1End (level : Level)
  /-- SCHEDULED_COMPLETION: a scheduled operation completes, with the level of the channel. -/
  | scheduledCompletion (level : Level)
  /-- ONE_SHOT_COMPLETION: a one-shot completes, with the level of the channel. -/
  | oneShotCompletion (level : Level)
  /-- PARKED_REPLY_QUEUED: a waiting parked outcome enters the reply queue. -/
  | parkedReplyQueued
  /-- REPLY_TRANSMISSION_START. -/
  | replyTransmissionStart
  /-- NOTICE_TRANSMISSION_START. -/
  | noticeTransmissionStart
  /-- TRANSMISSION_COMPLETION: the last stop bit ends. -/
  | transmissionCompletion
  /-- HELLO is taken. -/
  | hello
  /-- DEFINE is taken. -/
  | define
  /-- ARM is taken. -/
  | arm
  /-- DISARM is taken. -/
  | disarm
  /-- DELETE is taken. -/
  | delete
  /-- SET_LIMITS is taken. -/
  | setLimits
  /-- READ_PROBE is taken. -/
  | readProbe
  /-- MEASURE is taken. -/
  | measure
  /-- RUN is taken. -/
  | run
  /-- PAUSE is taken. -/
  | pause
  /-- SET_TIME is taken. -/
  | setTime
  /-- READ_TIME is taken. -/
  | readTime
  /-- READ_HISTORY is taken. -/
  | readHistory
  /-- ACK is taken. -/
  | ack
  /-- HOLD is taken. -/
  | hold
  /-- LINK_CONFIG is taken. -/
  | linkConfig
  /-- CHECK_CONFIG is taken. -/
  | checkConfig
  /-- READ_COUNTERS is taken. -/
  | readCounters
  /-- SOFT_RESET is taken. -/
  | softReset
  /-- BYTE_ARRIVAL: a character's stop bit is sampled; the levels of its eight data bits, in the order in which they were on the
  line, and of the stop bit (R145). -/
  | byteArrival (data : Vector Bool 8) (stopHigh : Bool)
  deriving DecidableEq, Repr

end Sys2Proof
end

