-- ==== Sys2Proof/Decode.lean ====
section
/-! DEFINITION. Decoding. The opcode table gives its rows no bits, so a table word spells no command (log 13). The
command codes, payload lengths and payload fields of the host's frames (Table 10-5) are decoded here too. -/

namespace Sys2Proof

/-- The command a table word spells: the table gives its rows no bits, so none. -/
def decodeTableWord (_nbits _w : Nat) : Option Instr := none

/-- A character on RXD or TXD after its start bit, which is low (R145). -/
structure Character where
  /-- Levels of the eight data bits in the order in which they are on the line. -/
  data : Vector Bool 8
  /-- The stop bit is high. -/
  stopHigh : Bool
  deriving DecidableEq, Repr

/-- The byte of a character: the data bits are on the line least significant first (R145). -/
def Character.byte (c : Character) : Byte := (BitVec.ofBoolListLE c.data.toList).cast (by simp)

/-- The character of a byte: eight data bits, least significant first, and a high stop bit (R145). -/
def Character.ofByte (b : Byte) : Character := ⟨Vector.ofFn fun k => b.getLsbD k.val, true⟩

/-- The ten levels of a character on the line: a low start bit, the data bits, the stop bit; no parity bit (R145). -/
def Character.levels (c : Character) : List Bool := false :: c.data.toList ++ [c.stopHigh]

/-- The commands the host may send in a frame (Table 10-5). -/
inductive HostCommand where
  | hello | define | arm | disarm | delete | setLimits | readProbe | measure | run | pause | setTime | readTime
  | readHistory | ack | hold | linkConfig | checkConfig | readCounters | softReset
  deriving DecidableEq, Repr

/-- Command codes (Table 10-5). -/
def HostCommand.code : HostCommand → Byte
  | .hello => 0x01
  | .define => 0x10
  | .arm => 0x11
  | .disarm => 0x12
  | .delete => 0x13
  | .setLimits => 0x14
  | .readProbe => 0x15
  | .measure => 0x16
  | .run => 0x20
  | .pause => 0x21
  | .setTime => 0x22
  | .readTime => 0x23
  | .readHistory => 0x30
  | .ack => 0x40
  | .hold => 0x41
  | .linkConfig => 0x50
  | .checkConfig => 0x51
  | .readCounters => 0x52
  | .softReset => 0x5F

/-- The rows of Table 10-5, in its order. -/
def HostCommand.all : List HostCommand :=
  [.hello, .define, .arm, .disarm, .delete, .setLimits, .readProbe, .measure, .run, .pause, .setTime, .readTime,
   .readHistory, .ack, .hold, .linkConfig, .checkConfig, .readCounters, .softReset]

/-- The command a KIND byte is assigned to, if any (R152, R175). -/
def HostCommand.ofCode (kind : Byte) : Option HostCommand :=
  HostCommand.all.find? fun c => c.code = kind

/-- Whether LEN is the length Table 10-5 gives the command. -/
def HostCommand.lenOk (c : HostCommand) (len : Nat) : Bool :=
  match c with
  | .hello | .run | .pause | .readTime | .softReset => len = 0
  | .define => len = 17
  | .arm | .disarm | .delete | .readProbe | .measure | .hold | .linkConfig | .checkConfig | .readCounters => len = 1
  | .setLimits => len = 7
  | .setTime | .readHistory => len = 4
  | .ack => len % 2 = 0 ∧ 2 ≤ len ∧ len ≤ 16

/-- The command a good frame carries, or none where R152 refuses it BAD_FRAME: a KIND not assigned to a command, or a
LEN that is not the command's. -/
def judgeFrame (kind : Byte) (len : Nat) : Option HostCommand :=
  match HostCommand.ofCode kind with
  | some c => if c.lenOk len then some c else none
  | none => none

/-- Byte k of a payload. A frame in the inbox has the length of its command (R152), so the default is never read (log 14). -/
def byteAt (p : List Byte) (k : Nat) : Byte := p.getD k 0

/-- The 16-bit field at byte k, most significant byte first (R174). -/
def halfAt (p : List Byte) (k : Nat) : Half := byteAt p k ++ byteAt p (k + 1)

/-- The 32-bit field at byte k, most significant byte first (R174). -/
def wordAt (p : List Byte) (k : Nat) : Tick := halfAt p k ++ halfAt p (k + 2)

/-- The 16-bit fields of a payload, in order (the sequence numbers of ACK). -/
def halves : List Byte → List Half
  | hi :: lo :: rest => (hi ++ lo) :: halves rest
  | _ => []

/-- The payload of DEFINE after the probe id, as carried (Table 10-5). -/
structure DefineFields where
  channel : Byte
  style : BitVec 4
  cls : BitVec 4
  period : Half
  phase : Half
  high : Half
  low : Half
  hysteresis : Byte
  settle : Byte
  confirmRuns : Byte
  depth : Byte
  watermark : Byte
  notify : Byte
  deriving DecidableEq, Repr

/-- The fields of a DEFINE payload. Style is the upper four bits of its byte and class the lower four (R175). -/
def defineFields (p : List Byte) : DefineFields where
  channel := byteAt p 1
  style := (byteAt p 2).extractLsb' 4 4
  cls := (byteAt p 2).extractLsb' 0 4
  period := halfAt p 3
  phase := halfAt p 5
  high := halfAt p 7
  low := halfAt p 9
  hysteresis := byteAt p 11
  settle := byteAt p 12
  confirmRuns := byteAt p 13
  depth := byteAt p 14
  watermark := byteAt p 15
  notify := byteAt p 16

end Sys2Proof
end

