-- ==== Sys2Proof/Machine/State.lean ====
section
/-! DEFINITION. State of the TB1732 as plain data, and its value right after a reset. -/

namespace Sys2Proof.Machine

/-! ### Probes (Chapter 1) -/

/-- Probe states (R3). -/
inductive ProbeState where
  | free | defined | armed
  deriving DecidableEq, Repr

/-- A confirmed verdict (R64). -/
inductive Verdict where
  | unknown | below | inside | above
  deriving DecidableEq, Repr

/-- A raw verdict, the classification of one run (04, 4.1). -/
inductive RawVerdict where
  | below | inside | above
  deriving DecidableEq, Repr

/-- A window with the hysteresis and settle present with it (Table 1-1). -/
structure Window where
  high : Code
  low : Code
  hysteresis : Byte
  settle : Nat
  deriving DecidableEq, Repr

/-- The style with the definition fields it decides on (R9, R10): a window is present for WINDOW and ADAPTIVE, optional
for LEVEL and absent for CHECK; confirm runs are present for ADAPTIVE alone. -/
inductive Style where
  | level (window : Option Window)
  | window (window : Window)
  | adaptive (window : Window) (confirmRuns : Nat)
  | check
  deriving DecidableEq, Repr

/-- What a probe may report (R10). -/
structure NotifySet where
  crossing : Bool
  initial : Bool
  watermark : Bool
  overrun : Bool
  deriving DecidableEq, Repr

/-- The definition fields of a probe record (Table 1-1). -/
structure Definition where
  channel : Fin 17
  style : Style
  period : Half
  phase : Half
  cls : Fin 4
  depth : Nat
  watermark : Nat
  notify : NotifySet
  deriving DecidableEq, Repr

/-- The verdict a probe settles toward and the consecutive runs that gave it (R72). -/
structure Candidate where
  verdict : RawVerdict
  count : Nat
  deriving DecidableEq, Repr

/-- Adaptive mode of an ADAPTIVE probe (R77). -/
inductive AdaptiveMode where
  | watching
  | escalated (remaining : Nat)
  deriving DecidableEq, Repr

/-- What a run left in its record: the kind with the fields present for it (Table 6-1). -/
inductive RunData where
  | level (value : Code) (raw : Option RawVerdict)
  | window (raw : RawVerdict)
  | check (value : Code) (failed : Bool)
  deriving DecidableEq, Repr

/-- A history record (R97). -/
structure HistoryRecord where
  stamp : Tick
  data : RunData
  suspect : Bool
  followUp : Bool
  deriving DecidableEq, Repr

/-- A probe record (R2, Table 1-1). The ring fill is the length of the ring. -/
structure Probe where
  state : ProbeState
  generation : Byte
  defn : Option Definition
  nextDue : Option Tick
  overruns : Half
  overrunLatch : Bool
  confirmed : Verdict
  candidate : Option Candidate
  mode : Option AdaptiveMode
  lastValue : Option Code
  runs : Half
  ring : List HistoryRecord
  overwritten : Half
  watermarkReached : Bool
  deriving DecidableEq, Repr

/-- A FREE record with the given generation and every other field at its value after reset (Table 1-1, R14). -/
def Probe.cleared (generation : Byte) : Probe where
  state := .free
  generation := generation
  defn := none
  nextDue := none
  overruns := 0
  overrunLatch := false
  confirmed := .unknown
  candidate := none
  mode := none
  lastValue := none
  runs := 0
  ring := []
  overwritten := 0
  watermarkReached := false

/-! ### Scheduler and measurement engine (Chapters 2 and 3) -/

/-- Scheduler states (R26). -/
inductive SchedulerState where
  | stopped | running | draining
  deriving DecidableEq, Repr

/-- A SCHEDULED entry of the due queue (Table 3-1). `arrival` is the model's own: the tick that queued it, counted
without wrapping, because R45 orders entries by the ticks themselves and not by entry tick numbers (log 8). -/
structure ScheduledEntry where
  probe : Fin 32
  generation : Byte
  entryTick : Tick
  followUp : Bool
  arrival : Nat
  deriving DecidableEq, Repr

/-- A ONE_SHOT entry of the due queue, linked to the parked MEASURE that asked for it (Table 3-1). -/
structure OneShotEntry where
  probe : Fin 32
  link : Nat
  deriving DecidableEq, Repr

/-- A due queue entry (R43). -/
inductive DueEntry where
  | scheduled (e : ScheduledEntry)
  | oneShot (e : OneShotEntry)
  deriving DecidableEq, Repr

/-- Answer of a gate comparison (03, 3.4). -/
inductive Gate where
  | higher | notHigher
  deriving DecidableEq, Repr

/-- The converter operation in flight (R48, R50): a WINDOW run has its comparison levels and the answers of the gates
done. -/
inductive Operation where
  | level
  | check
  | window (upper : Code) (lower : Option Code) (gates : List Gate)
  deriving DecidableEq, Repr

/-- The in-flight record (R48). -/
structure InFlight where
  entry : DueEntry
  op : Operation
  channel : Fin 17
  deriving DecidableEq, Repr

/-- Engine states with the in-flight record of BUSY (R47). The QUIESCE line is asserted exactly in QUIESCED. -/
inductive Engine where
  | idle
  | busy (op : InFlight)
  | quiesced
  deriving DecidableEq, Repr

/-! ### Evaluator (Chapter 5) -/

/-- Converter health with the good-check count, which is 0 whenever the health is GOOD (R85). -/
inductive Health where
  | good
  | suspect (onePassed : Bool)
  deriving DecidableEq, Repr

/-! ### Notices (Chapter 7) -/

/-- Notice classes (R113). -/
inductive NoticeClass where
  | crossing | watermark | overrun | condition
  deriving DecidableEq, Repr

/-- A set of notice classes (R123). -/
structure ClassSet where
  crossing : Bool
  watermark : Bool
  overrun : Bool
  condition : Bool
  deriving DecidableEq, Repr

/-- The empty set of classes. -/
def ClassSet.empty : ClassSet := ⟨false, false, false, false⟩

/-- Cause of the last power, pin or soft reset (R126). -/
inductive ResetCause where
  | power | pin | soft
  deriving DecidableEq, Repr

/-- Reason of a CONDITION notice (Table 7-2). -/
inductive Reason where
  | startup (cause : ResetCause) (quiesce : Bool)
  | converterSuspect
  | converterGood
  | quiesceOn
  | quiesceOff
  deriving DecidableEq, Repr

/-- Class, probe id, generation and payload of a notice (Tables 7-1 and 7-2). -/
inductive NoticeContent where
  | crossing (probe : Fin 32) (generation : Byte) (previous : Verdict) (new : RawVerdict) (value : Option Code)
      (suspect : Bool) (merged : Byte)
  | watermark (probe : Fin 32) (generation : Byte) (fill : Nat) (depth : Nat)
  | overrun (probe : Fin 32) (generation : Byte) (overruns : Half)
  | condition (reason : Reason)
  deriving DecidableEq, Repr

/-- Delivery state with the sent stamp of a SENT notice (R112). -/
inductive Delivery where
  | queued
  | sent (stamp : Tick)
  deriving DecidableEq, Repr

/-- A notice record (R112). -/
structure Notice where
  seq : Half
  content : NoticeContent
  stamp : Tick
  gap : Byte
  delivery : Delivery
  retries : Nat
  deriving DecidableEq, Repr

/-! ### Command processor (Chapter 10) -/

/-- A command frame in the inbox, as received, with the MUTE flag noted at its receipt (R141, R160). -/
structure Frame where
  kind : Byte
  tag : Byte
  payload : List Byte
  muteNoted : Bool
  deriving DecidableEq, Repr

/-- Link rates (R146). -/
inductive LinkRate where
  | r9600 | r38400 | r115200 | r460800
  deriving DecidableEq, Repr

/-- The rate the straps select (Table 9-1). -/
def LinkRate.ofStraps : Bool → Bool → LinkRate
  | false, false => .r9600
  | false, true => .r38400
  | true, false => .r115200
  | true, true => .r460800

/-- Link error counters (R158). -/
structure LinkCounters where
  checkErrors : Half
  lengthErrors : Half
  gapErrors : Half
  inboxOverflows : Half
  deriving DecidableEq, Repr

/-- What HELLO reports besides the fixed version and capacities (R168). -/
structure HelloReport where
  freeCount : Nat
  scheduler : SchedulerState
  engine : Engine
  health : Health
  holdSet : ClassSet
  cause : ResetCause
  deriving DecidableEq, Repr

/-- Status and data of a reply (R167, Tables 10-1 and 10-6). The first group refuses, the second is status OK. -/
inductive ReplyBody where
  | busy
  | busyPause (scheduler : SchedulerState)
  | badFrame
  | badValue (field : Byte)
  | noProbe
  | wrongState (state : ProbeState)
  | wrongSchedulerState (scheduler : SchedulerState)
  | noRoom (freeCount : Nat)
  | tagInUse
  | inProgress
  | aborted (probe : Fin 32)
  | superseded
  | hello (report : HelloReport)
  | defined (generation : Byte) (freeCount : Nat)
  | armed (generation : Byte) (nextDue : Option Tick)
  | generation (generation : Byte)
  | deleted (freeCount : Nat)
  | probe (record : Probe)
  | measured (probe : Fin 32) (code : Code) (suspect : Bool)
  | counter (value : Tick)
  | time (value : Tick) (scheduler : SchedulerState)
  | history (fill : Nat) (overwritten : Half) (records : List HistoryRecord)
  | acked (removed : Nat) (notFound : Nat)
  | held (holdSet : ClassSet) (notices : Nat)
  | linkConfig (timeout : Byte) (mute : Bool) (rate : LinkRate) (sent : Nat)
  | checkConfig (tolerance : Byte) (health : Health)
  | counters (errors : LinkCounters) (dropped : BitVec 32)
  | softReset
  deriving DecidableEq, Repr

/-- A reply: the tag of its command, the command code answered, the status and data (R166). -/
structure Reply where
  tag : Byte
  code : Byte
  body : ReplyBody
  deriving DecidableEq, Repr

/-- A parked command (R163). -/
inductive ParkedCommand where
  | measure (probe : Fin 32)
  | pause
  deriving DecidableEq, Repr

/-- Outcome of a parked command: awaited, or fixed with its status and data; `order` numbers outcomes in the order in
which they were fixed (R163, R165). -/
inductive ParkedOutcome where
  | awaited
  | fixed (order : Nat) (body : ReplyBody)
  deriving DecidableEq, Repr

/-- An entry of the parked list (R163). `link` is the name by which a ONE_SHOT entry refers to it (Table 3-1). -/
structure ParkedEntry where
  tag : Byte
  command : ParkedCommand
  link : Nat
  outcome : ParkedOutcome
  deriving DecidableEq, Repr

/-! ### Link (Chapters 8 and 9) -/

/-- Receiver states (09, 9.3). -/
inductive ReceiverPhase where
  | hunt | header | body
  deriving DecidableEq, Repr

/-- The frame receiver (R149): its state, the bytes of the frame in progress from LEN on, the count of bytes still
expected (given in BODY alone; the model's in HUNT and HEADER, log 21) and the quiet count. -/
structure Receiver where
  phase : ReceiverPhase
  bytes : List Byte
  expected : Nat
  quiet : Nat
  deriving DecidableEq, Repr

/-- The receiver in HUNT: no frame in progress, quiet count 0. DESIGN CHOICE: the count of bytes still expected, which R149 and
Table 9-5 do not give there, is 0 (log 21), and so is the quiet count after a gap abort, which R151 does not give (log 22). -/
def Receiver.hunting : Receiver := ⟨.hunt, [], 0, 0⟩

/-- What the transmitter copied at the start of a transmission (R133, R156). -/
inductive TxFrame where
  | reply (r : Reply)
  | notice (n : Notice)
  deriving DecidableEq, Repr

/-- Transmitter states (R156). -/
inductive Transmitter where
  | free
  | sending (frame : TxFrame)
  | held
  deriving DecidableEq, Repr

/-! ### The machine -/

/-- What the last tick and the last good frame still owe (log 4, log 5): the due check of R35, the timeout examination
of R137, the receiver's examination of R151, the receipt of R152. -/
structure Owed where
  dueCheck : Bool
  timeouts : Bool
  gap : Bool
  receipt : Option (Byte × Byte × List Byte)
  deriving DecidableEq, Repr

/-- Nothing is owed. -/
def Owed.nothing : Owed := ⟨false, false, false, none⟩

/-- Everything a tick owes. -/
def Owed.tick : Owed := ⟨true, true, true, none⟩

/-- State of the TB1732 and the queue of commands that wait. -/
structure State where
  /-- Tick counter (R23). -/
  counter : Tick
  /-- Crystal periods since the last tick (R22). -/
  divider : BitVec 8
  /-- Model's own: ticks since the reset (log 8). -/
  elapsed : Nat
  /-- Scheduler state (R26). -/
  scheduler : SchedulerState
  /-- Probe table (R1, R2). -/
  probes : Vector Probe 32
  /-- Free count of the history pool (R94). -/
  freeCount : Nat
  /-- Due queue, head first (R43). -/
  dueQueue : List DueEntry
  /-- Engine state and in-flight record (R47, R48). -/
  engine : Engine
  /-- Converter health and good-check count (R85). -/
  health : Health
  /-- Check tolerance (R85). -/
  tolerance : Byte
  /-- Notice records in the order of their creation (R111). -/
  notices : List Notice
  /-- Next sequence number (R114). -/
  nextSeq : Half
  /-- Gap accumulator (R121). -/
  gapAcc : Byte
  /-- Hold set (R123). -/
  holdSet : ClassSet
  /-- Dropped-notice total (R121). -/
  dropped : BitVec 32
  /-- Frame receiver (R149). -/
  receiver : Receiver
  /-- Transmitter (R156). -/
  transmitter : Transmitter
  /-- MUTE flag (R130). -/
  mute : Bool
  /-- Acknowledgement timeout (R130). -/
  ackTimeout : Byte
  /-- Link rate sampled from the straps (R146). -/
  rate : LinkRate
  /-- Link error counters (R158). -/
  counters : LinkCounters
  /-- Level of RXD as the last event of the line left it (R145, R154). -/
  rxdHigh : Bool
  /-- Inbox, oldest first (R160). -/
  inbox : List Frame
  /-- Parked list in parking order (R163). -/
  parked : List ParkedEntry
  /-- Reply queue, oldest first (R166). -/
  replies : List Reply
  /-- Soft reset pending (R170). -/
  softResetPending : Bool
  /-- Cause of the last power, pin or soft reset (R168). -/
  resetCause : ResetCause
  /-- A power reset has begun and not ended (R125, R156; log 11). -/
  powerReset : Bool
  /-- RESET# is held low (R125, R156; log 11). -/
  pinReset : Bool
  /-- Model's own: the next parked link (log 8). -/
  nextLink : Nat
  /-- Model's own: the next number in the order of fixing (log 8). -/
  nextFix : Nat
  /-- Model's own: what the last tick and good frame owe (log 4, log 5). -/
  owed : Owed
  /-- Model's own: the commands that wait, first in first out (log 18). -/
  pending : List Instr
  deriving DecidableEq, Repr

/-- Why a command may stop the machine. The TB1732 has no fault: every command has its effect or is answered by a
status code (R167), so there is no constructor. Safe: nothing can raise it. -/
inductive Fault where
  deriving DecidableEq, Repr

/-- Why a command may be refused by the model. -/
inductive Refusal where
  /-- The command of this mnemonic has no meaning yet; raised by an arm of exec alone, by none at present. Safe: the run
  stops where the part goes on. -/
  | notModelled (mnemonic : String)
  deriving DecidableEq, Repr

/-- The STARTUP notice of the end of a reset (R126). -/
def Notice.startup (cause : ResetCause) (quiesce : Bool) : Notice where
  seq := 0
  content := .condition (.startup cause quiesce)
  stamp := 0
  gap := 0
  delivery := .queued
  retries := 0

/-- The part at the end of a power, pin or soft reset: Tables 1-1, 2-2, 3-2, 5-3, 6-3, 7-3, 8-1, 9-5 and 10-2. -/
def State.afterReset (cause : ResetCause) (rate : LinkRate) (quiesce rxdHigh : Bool) : State where
  counter := 0
  divider := 0
  elapsed := 0
  scheduler := .stopped
  probes := Vector.replicate 32 (Probe.cleared 0)
  freeCount := Config.poolSlots
  dueQueue := []
  engine := if quiesce then .quiesced else .idle
  health := .good
  tolerance := Config.defaultTolerance
  notices := [Notice.startup cause quiesce]
  nextSeq := 1
  gapAcc := 0
  holdSet := ClassSet.empty
  dropped := 0
  receiver := Receiver.hunting
  transmitter := .free
  mute := false
  ackTimeout := Config.defaultAckTimeout
  rate := rate
  counters := ⟨0, 0, 0, 0⟩
  rxdHigh := rxdHigh
  inbox := []
  parked := []
  replies := []
  softResetPending := false
  resetCause := cause
  powerReset := false
  pinReset := false
  nextLink := 0
  nextFix := 0
  owed := Owed.nothing
  pending := []

/-- The part right after a power reset. DESIGN CHOICE, unsafe (log 1): the pins stand at both straps low (9600 baud), QUIESCE
released and RXD idle high; POWER_RESET takes any levels. -/
def State.reset : State := State.afterReset .power (LinkRate.ofStraps false false) false true

end Sys2Proof.Machine
end

