-- ==== Sys2Proof/Machine/Layout.lean ====
section
/-! DEFINITION. Message layouts: the codes of Table 10-4, the payloads of replies and notices (R174 to R177), the frame
and its check sequence (R147, R148). -/

namespace Sys2Proof.Machine

/-- A number as one byte. -/
def byteOf (n : Nat) : Byte := BitVec.ofNat 8 n

/-- One bit as a byte. -/
def byteOfBool (b : Bool) : Byte := if b then 1 else 0

/-- A 16-bit field, most significant byte first (R174). -/
def bytes16 (x : Half) : List Byte := [x.extractLsb' 8 8, x.extractLsb' 0 8]

/-- A 32-bit field, most significant byte first (R174). -/
def bytes32 (x : BitVec 32) : List Byte :=
  [x.extractLsb' 24 8, x.extractLsb' 16 8, x.extractLsb' 8 8, x.extractLsb' 0 8]

/-! ### Codes (Table 10-4) -/

/-- Probe state codes. -/
def ProbeState.code : ProbeState → Byte
  | .free => 0x00
  | .defined => 0x01
  | .armed => 0x02

/-- Scheduler state codes. -/
def SchedulerState.code : SchedulerState → Byte
  | .stopped => 0x10
  | .running => 0x11
  | .draining => 0x12

/-- Engine state codes. -/
def Engine.code : Engine → Byte
  | .idle => 0x20
  | .busy _ => 0x21
  | .quiesced => 0x22

/-- Style codes. -/
def Style.code : Style → Nat
  | .level _ => 0
  | .window _ => 1
  | .adaptive _ _ => 2
  | .check => 3

/-- Verdict codes. -/
def Verdict.code : Verdict → Byte
  | .unknown => 0x00
  | .below => 0x01
  | .inside => 0x02
  | .above => 0x03

/-- A raw verdict as a verdict. -/
def RawVerdict.toVerdict : RawVerdict → Verdict
  | .below => .below
  | .inside => .inside
  | .above => .above

/-- A verdict that may be absent: 0xFF when absent. -/
def rawCode : Option RawVerdict → Byte
  | none => 0xFF
  | some r => r.toVerdict.code

/-- A code that may be absent: 0xFFFF when absent. -/
def valueBytes : Option Code → List Byte
  | none => bytes16 0xFFFF
  | some c => bytes16 (c.setWidth 16)

/-- Health codes. -/
def Health.code : Health → Byte
  | .good => 0x00
  | .suspect _ => 0x01

/-- The good-check count (R85). -/
def Health.goodChecks : Health → Nat
  | .good => 0
  | .suspect onePassed => if onePassed then 1 else 0

/-- Notice class codes. -/
def NoticeClass.code : NoticeClass → Byte
  | .crossing => 0
  | .watermark => 1
  | .overrun => 2
  | .condition => 3

/-- Reset cause codes. -/
def ResetCause.code : ResetCause → Byte
  | .power => 0
  | .pin => 1
  | .soft => 2

/-- Four indications as bits 0 to 3 of a byte. -/
def bits4 (b0 b1 b2 b3 : Bool) : Byte :=
  byteOfBool b0 ||| (byteOfBool b1 <<< 1) ||| (byteOfBool b2 <<< 2) ||| (byteOfBool b3 <<< 3)

/-- Class set byte: bit n for notice class n. -/
def ClassSet.code (c : ClassSet) : Byte := bits4 c.crossing c.watermark c.overrun c.condition

/-- The class set of a byte whose bits 4 to 7 are zero; none violates field 16 (R175). -/
def ClassSet.ofByte (b : Byte) : Option ClassSet :=
  if b.extractLsb' 4 4 = 0 then some ⟨b.getLsbD 0, b.getLsbD 1, b.getLsbD 2, b.getLsbD 3⟩ else none

/-- Notify set byte: CROSSING, INITIAL, WATERMARK, OVERRUN in bits 0 to 3. -/
def NotifySet.code (n : NotifySet) : Byte := bits4 n.crossing n.initial n.watermark n.overrun

/-- The notify set of a byte whose bits 4 to 7 are zero; none violates field 12 (R175). -/
def NotifySet.ofByte (b : Byte) : Option NotifySet :=
  if b.extractLsb' 4 4 = 0 then some ⟨b.getLsbD 0, b.getLsbD 1, b.getLsbD 2, b.getLsbD 3⟩ else none

/-- The rate in baud (Table 9-1). -/
def LinkRate.baud : LinkRate → BitVec 32
  | .r9600 => 9600
  | .r38400 => 38400
  | .r115200 => 115200
  | .r460800 => 460800

/-! ### Reply data (Table 10-6) -/

/-- The window of a style, if present. -/
def Style.window? : Style → Option Window
  | .level w => w
  | .window w => some w
  | .adaptive w _ => some w
  | .check => none

/-- The confirm runs of a style, if present. -/
def Style.confirmRuns? : Style → Option Nat
  | .adaptive _ n => some n
  | _ => none

/-- High, low, hysteresis and settle: 0xFFFF, 0xFFFF, 0, 0 when the window is absent (R18, R176). -/
def windowBytes : Option Window → List Byte
  | none => bytes16 0xFFFF ++ bytes16 0xFFFF ++ [0, 0]
  | some w => bytes16 (w.high.setWidth 16) ++ bytes16 (w.low.setWidth 16) ++ [w.hysteresis, byteOf w.settle]

/-- The 16 definition bytes of DEFINE from channel to notify set (Table 10-6). -/
def Definition.bytes (d : Definition) : List Byte :=
  [byteOf d.channel.val, byteOf (d.style.code * 16 + d.cls.val)] ++ bytes16 d.period ++ bytes16 d.phase ++
    windowBytes d.style.window? ++
    [byteOf (d.style.confirmRuns?.getD 0), byteOf d.depth, byteOf d.watermark, d.notify.code]

/-- Adaptive mode and remaining bytes (Tables 10-4 and 10-6). -/
def modeBytes : Option AdaptiveMode → List Byte
  | none => [0, 0]
  | some .watching => [1, 0]
  | some (.escalated n) => [2, byteOf n]

/-- Candidate verdict and count bytes: 0xFF and 0 when absent (R176). -/
def candidateBytes : Option Candidate → List Byte
  | none => [0xFF, 0]
  | some c => [c.verdict.toVerdict.code, byteOf c.count]

/-- The data of READ_PROBE: state and generation alone for a FREE probe, otherwise the whole record (R18, R176).
DESIGN CHOICE (log 19): bits 3 to 7 of the flags byte, which Table 10-6 does not name, are sent as 0. -/
def Probe.bytes (p : Probe) : List Byte :=
  match p.state, p.defn with
  | .free, _ | _, none => [p.state.code, p.generation]
  | _, some d =>
    [p.state.code, p.generation] ++ d.bytes ++
      [bits4 p.nextDue.isSome p.overrunLatch p.watermarkReached false] ++ bytes32 (p.nextDue.getD 0) ++
      bytes16 p.overruns ++ [p.confirmed.code] ++ candidateBytes p.candidate ++ modeBytes p.mode ++
      valueBytes p.lastValue ++ bytes16 p.runs ++ [byteOf p.ring.length] ++ bytes16 p.overwritten

/-- Kind bits, raw verdict and value of a record (Table 10-8). -/
def RunData.parts : RunData → Byte × Option RawVerdict × Option Code
  | .level v r => (0, r, some v)
  | .window r => (1, some r, none)
  | .check v failed => (2 ||| (byteOfBool failed <<< 6), none, some v)

/-- A history record (Table 10-8). -/
def HistoryRecord.bytes (h : HistoryRecord) : List Byte :=
  let (kind, raw, value) := h.data.parts
  bytes32 h.stamp ++ [kind ||| (byteOfBool h.suspect <<< 4) ||| (byteOfBool h.followUp <<< 5), rawCode raw] ++
    valueBytes value

/-- Data of HELLO: version 1.0, the capacities and the report (R168, Table 10-6). -/
def HelloReport.bytes (h : HelloReport) : List Byte :=
  [1, 0, 32] ++ bytes16 (BitVec.ofNat 16 Config.poolSlots) ++
    [byteOf Config.noticeCapacity, byteOf Config.inboxCapacity, byteOf Config.parkedCapacity,
     byteOf Config.replyCapacity] ++
    bytes16 (BitVec.ofNat 16 h.freeCount) ++
    [h.scheduler.code, h.engine.code, h.health.code, h.holdSet.code, h.cause.code]

/-- Status code of a reply (Table 10-1). -/
def ReplyBody.status : ReplyBody → Byte
  | .busy | .busyPause _ => 0x01
  | .badFrame => 0x02
  | .badValue _ => 0x03
  | .noProbe => 0x04
  | .wrongState _ | .wrongSchedulerState _ => 0x05
  | .noRoom _ => 0x06
  | .tagInUse => 0x07
  | .inProgress => 0x08
  | .aborted _ => 0x09
  | .superseded => 0x0A
  | .hello _ | .defined _ _ | .armed _ _ | .generation _ | .deleted _ | .probe _ | .measured _ _ _ | .counter _
  | .time _ _ | .history _ _ _ | .acked _ _ | .held _ _ | .linkConfig _ _ _ _ | .checkConfig _ _ | .counters _ _
  | .softReset => 0x00

/-- Data after the status and code (R167, Table 10-6). DESIGN CHOICE (log 19): bits 1 to 7 of the flags byte of MEASURE, which
Table 10-6 does not name, are sent as 0. -/
def ReplyBody.data : ReplyBody → List Byte
  | .busy | .badFrame | .noProbe | .tagInUse | .inProgress | .superseded | .softReset => []
  | .busyPause st | .wrongSchedulerState st => [st.code]
  | .badValue field => [field]
  | .wrongState st => [st.code]
  | .noRoom free | .deleted free => bytes16 (BitVec.ofNat 16 free)
  | .aborted i => [byteOf i.val]
  | .hello report => report.bytes
  | .defined gen free => [gen] ++ bytes16 (BitVec.ofNat 16 free)
  | .armed gen nextDue => [gen, byteOfBool nextDue.isSome] ++ bytes32 (nextDue.getD 0)
  | .generation gen => [gen]
  | .probe record => record.bytes
  | .measured i code suspect => [byteOf i.val] ++ bytes16 (code.setWidth 16) ++ [byteOfBool suspect]
  | .counter value => bytes32 value
  | .time value st => bytes32 value ++ [st.code]
  | .history fill overwritten records =>
    [byteOf fill] ++ bytes16 overwritten ++ [byteOf records.length] ++ records.flatMap HistoryRecord.bytes
  | .acked removed notFound => [byteOf removed, byteOf notFound]
  | .held set n => [set.code, byteOf n]
  | .linkConfig timeout mute rate sent => [timeout, byteOfBool mute] ++ bytes32 rate.baud ++ [byteOf sent]
  | .checkConfig tolerance health => [tolerance, health.code, byteOf health.goodChecks]
  | .counters e dropped =>
    bytes16 e.checkErrors ++ bytes16 e.lengthErrors ++ bytes16 e.gapErrors ++ bytes16 e.inboxOverflows ++
      bytes32 dropped

/-- Payload of a reply frame (R176). -/
def Reply.payload (r : Reply) : List Byte := [r.body.status, r.code] ++ r.body.data

/-! ### Notice payload (Table 10-7) -/

/-- The class of a notice. -/
def NoticeContent.cls : NoticeContent → NoticeClass
  | .crossing .. => .crossing
  | .watermark .. => .watermark
  | .overrun .. => .overrun
  | .condition _ => .condition

/-- Probe id and generation bytes: 0xFF for CONDITION (R177). -/
def NoticeContent.ownerBytes : NoticeContent → List Byte
  | .crossing i gen _ _ _ _ _ | .watermark i gen _ _ | .overrun i gen _ => [byteOf i.val, gen]
  | .condition _ => [0xFF, 0xFF]

/-- Reason, reset cause and QUIESCE level bytes; cause and level are 0 for every reason but STARTUP (R177). -/
def Reason.bytes : Reason → List Byte
  | .startup cause quiesce => [0, cause.code, byteOfBool quiesce]
  | .converterSuspect => [1, 0, 0]
  | .converterGood => [2, 0, 0]
  | .quiesceOn => [3, 0, 0]
  | .quiesceOff => [4, 0, 0]

/-- The part of a notice payload that depends on the class (Table 10-7). DESIGN CHOICE (log 19): bits 1 to 7 of the flags byte
of CROSSING, which the table does not name, are sent as 0. -/
def NoticeContent.bytes : NoticeContent → List Byte
  | .crossing _ _ previous new value suspect merged =>
    [previous.code, new.toVerdict.code] ++ valueBytes value ++ [byteOfBool suspect, merged]
  | .watermark _ _ fill depth => [byteOf fill, byteOf depth]
  | .overrun _ _ overruns => bytes16 overruns
  | .condition reason => reason.bytes

/-- Payload of a notice frame (R177). -/
def Notice.payload (n : Notice) : List Byte :=
  bytes16 n.seq ++ [n.content.cls.code, n.gap] ++ bytes32 n.stamp ++ n.content.ownerBytes ++ n.content.bytes

/-! ### Frames (R147, R148) -/

/-- One shift of the check register (R148 step 3). -/
def fcsShift (r : BitVec 16) : BitVec 16 :=
  if r.msb then (r <<< 1) ^^^ 0x1021 else r <<< 1

/-- One byte entered into the check register (R148 steps 2 and 3). -/
def fcsByte (r : BitVec 16) (b : Byte) : BitVec 16 :=
  fcsShift (fcsShift (fcsShift (fcsShift (fcsShift (fcsShift (fcsShift (fcsShift
    (r ^^^ (b.setWidth 16 <<< 8)))))))))

/-- The frame check sequence of some bytes (R148). -/
def fcs (bytes : List Byte) : BitVec 16 := bytes.foldl fcsByte 0xFFFF

/-- The bytes of a frame in the order sent (R147). -/
def frameBytes (kind tag : Byte) (payload : List Byte) : List Byte :=
  let checked := [byteOf payload.length, kind, tag] ++ payload
  [Config.sync] ++ checked ++ bytes16 (fcs checked)

/-- The bytes on TXD of the frame in transmission (R147, R156). -/
def TxFrame.wire : TxFrame → List Byte
  | .reply r => frameBytes Config.kindReply r.tag r.payload
  | .notice n => frameBytes Config.kindNotice 0 n.payload

/-- The levels of the frame on TXD, one for each bit time: its characters back to back (R145, R156). -/
def TxFrame.levels (f : TxFrame) : List Bool := f.wire.flatMap fun b => (Character.ofByte b).levels

/-- A frame of N bytes lasts 10 × N bit times (R156). -/
def TxFrame.bitTimes (f : TxFrame) : Nat := f.levels.length

end Sys2Proof.Machine
end

