-- ==== Sys2Proof/Machine/Ops.lean ====
section
/-! DEFINITION. Shared operations on State: probe records, the due queue, the reply queue, the parked list, the taking of
a command. -/

namespace Sys2Proof.Machine

/-! ### Probe records -/

/-- The record of probe i. -/
def State.probe (s : State) (i : Fin 32) : Probe := s.probes[i]

/-- Replaces the record of probe i. -/
def State.setProbe (s : State) (i : Fin 32) (p : Probe) : State :=
  { s with probes := s.probes.set i p }

/-- Changes every probe record alike. -/
def State.mapProbes (f : Probe → Probe) (s : State) : State :=
  { s with probes := ⟨⟨s.probes.toList.map f⟩, by simp⟩ }

/-- The class of probe i (R45); a queued entry's probe always has a definition. -/
def State.classOf (s : State) (i : Fin 32) : Nat :=
  match (s.probe i).defn with
  | some d => d.cls.val
  | none => 0

/-! ### Lines -/

/-- The part is held in reset: a power reset has not ended, or RESET# is low (R125, R156). -/
def State.inReset (s : State) : Bool := s.powerReset || s.pinReset

/-- The QUIESCE line is asserted (R47). -/
def State.quiesceLine (s : State) : Bool := s.engine = .quiesced

/-- Membership in a class set. -/
def ClassSet.has (c : ClassSet) : NoticeClass → Bool
  | .crossing => c.crossing
  | .watermark => c.watermark
  | .overrun => c.overrun
  | .condition => c.condition

/-- ALERT# is asserted: a notice of an unheld class stands in the queue. It is released while the part is held in reset
(R125). -/
def State.alertAsserted (s : State) : Bool :=
  !s.inReset && s.notices.any fun n => !s.holdSet.has n.content.cls

/-- TXD is high `k` bit times after the start of the frame in transmission (R145, R156). It is idle high without one, in FREE
and in HELD, and high while the part is held in reset. -/
def State.txdHigh (s : State) (k : Nat) : Bool :=
  match s.inReset, s.transmitter with
  | false, .sending f => f.levels.getD k true
  | _, _ => true

/-! ### Due queue (R43 to R46) -/

/-- The entry is the SCHEDULED entry of probe i. -/
def DueEntry.isScheduledOf (i : Fin 32) : DueEntry → Bool
  | .scheduled e => e.probe = i
  | .oneShot _ => false

/-- The entry is the ONE_SHOT entry of probe i. -/
def DueEntry.isOneShotOf (i : Fin 32) : DueEntry → Bool
  | .scheduled _ => false
  | .oneShot e => e.probe = i

/-- The entry is a ONE_SHOT entry. -/
def DueEntry.isOneShot : DueEntry → Bool
  | .scheduled _ => false
  | .oneShot _ => true

/-- The probe an entry belongs to. -/
def DueEntry.probe : DueEntry → Fin 32
  | .scheduled e => e.probe
  | .oneShot e => e.probe

/-- Inserts an entry ahead of the first entry that must stand behind it. -/
def insertAhead (behind : DueEntry → Bool) (x : DueEntry) : List DueEntry → List DueEntry
  | [] => [x]
  | y :: ys => if behind y then x :: y :: ys else y :: insertAhead behind x ys

/-- Entry y stands behind the arriving SCHEDULED entry e: y is of a less urgent class, or of the same class and
queued at a later tick, or of the same class and tick with a higher probe id (R45). -/
def State.standsBehind (s : State) (e : ScheduledEntry) : DueEntry → Bool
  | .oneShot _ => false
  | .scheduled y =>
    s.classOf e.probe < s.classOf y.probe ||
      (s.classOf y.probe == s.classOf e.probe &&
        (e.arrival < y.arrival || (y.arrival == e.arrival && e.probe < y.probe)))

/-- Places a SCHEDULED entry of probe i in the order of R45, with the probe's current generation and the standing
counter value as its entry tick (R43). -/
def State.queueScheduled (s : State) (i : Fin 32) (followUp : Bool) : State :=
  let e : ScheduledEntry := ⟨i, (s.probe i).generation, s.counter, followUp, s.elapsed⟩
  { s with dueQueue := insertAhead (s.standsBehind e) (.scheduled e) s.dueQueue }

/-- Places a ONE_SHOT entry after the last ONE_SHOT entry, ahead of every SCHEDULED entry (R44). -/
def State.queueOneShot (s : State) (e : OneShotEntry) : State :=
  { s with dueQueue := insertAhead (fun y => !y.isOneShot) (.oneShot e) s.dueQueue }

/-- Removes the entries a condition names; the others keep their order (R46). -/
def State.dropEntries (s : State) (p : DueEntry → Bool) : State :=
  { s with dueQueue := s.dueQueue.filter fun e => !p e }

/-- A scheduled operation is in flight (R28). -/
def State.scheduledInFlight (s : State) : Bool :=
  match s.engine with
  | .busy { entry := .scheduled _, .. } => true
  | _ => false

/-! ### Reply queue (R166) -/

/-- The reply queue has a free slot. -/
def State.replySlot (s : State) : Bool := s.replies.length < Config.replyCapacity

/-- Queues a reply at the end. -/
def State.queueReply (s : State) (r : Reply) : State :=
  { s with replies := s.replies ++ [r] }

/-- Queues the reply to a command frame, with its tag and code. -/
def State.answer (s : State) (f : Frame) (body : ReplyBody) : State :=
  s.queueReply ⟨f.tag, f.kind, body⟩

/-! ### Parked list (R163 to R165) -/

/-- The command code of a parked command. -/
def ParkedCommand.code : ParkedCommand → Byte
  | .measure _ => HostCommand.measure.code
  | .pause => HostCommand.pause.code

/-- The outcome is awaited. -/
def ParkedEntry.awaited (e : ParkedEntry) : Bool := e.outcome = .awaited

/-- The entry is a MEASURE on probe i. -/
def ParkedEntry.isMeasureOf (i : Fin 32) (e : ParkedEntry) : Bool := e.command = .measure i

/-- The entry is a PAUSE. -/
def ParkedEntry.isPause (e : ParkedEntry) : Bool := e.command = .pause

/-- Some entry with a fixed outcome waits for a reply-queue slot. -/
def State.outcomeWaiting (s : State) : Bool := s.parked.any fun e => !e.awaited

/-- Parks a command with the next link, its outcome awaited. -/
def State.park (s : State) (tag : Byte) (command : ParkedCommand) : State :=
  { s with parked := s.parked ++ [⟨tag, command, s.nextLink, .awaited⟩], nextLink := s.nextLink + 1 }

/-- Removes the parked entry of a link. -/
def State.unpark (s : State) (link : Nat) : State :=
  { s with parked := s.parked.filter fun e => e.link ≠ link }

/-- Gives the awaited entry of a link a fixed outcome that waits for a slot. -/
def State.markFixed (s : State) (link : Nat) (body : ReplyBody) : State :=
  { s with
    parked := s.parked.map fun e => if e.link = link then { e with outcome := .fixed s.nextFix body } else e
    nextFix := s.nextFix + 1 }

/-- Fixes the outcome of one awaited entry: its reply is queued at once if a slot is free and no earlier fixed entry
waits, otherwise the entry waits in the parked list (R164). -/
def State.fixEntry (body : ReplyBody) (s : State) (e : ParkedEntry) : State :=
  if s.replySlot && !s.outcomeWaiting then
    (s.unpark e.link).queueReply ⟨e.tag, e.command.code, body⟩
  else
    s.markFixed e.link body

/-- Fixes the outcomes of the awaited entries that a condition names, in parking order (R164). -/
def State.fixOutcomes (s : State) (which : ParkedEntry → Bool) (body : ReplyBody) : State :=
  (s.parked.filter fun e => e.awaited && which e).foldl (State.fixEntry body) s

/-- Of two waiting entries, the one whose outcome was fixed first. -/
def ParkedEntry.firstFixed (a b : ParkedEntry × Nat × ReplyBody) : ParkedEntry × Nat × ReplyBody :=
  if b.2.1 < a.2.1 then b else a

/-- The waiting entry whose outcome was fixed first, with its order and reply (R165). -/
def firstWaiting : List ParkedEntry → Option (ParkedEntry × Nat × ReplyBody)
  | [] => none
  | e :: rest =>
    match e.outcome, firstWaiting rest with
    | .awaited, found => found
    | .fixed n body, none => some (e, n, body)
    | .fixed n body, some found => some (ParkedEntry.firstFixed (e, n, body) found)

/-! ### The taking of a command (R161, R162) -/

/-- The conditions of R161 besides a frame in the inbox: a free reply slot, no waiting parked outcome, no soft reset
pending. -/
def State.canTake (s : State) : Bool := s.replySlot && !s.outcomeWaiting && !s.softResetPending

/-- The taking of one host command: the oldest frame leaves the inbox, a tag that a parked entry carries is refused
TAG_IN_USE, and otherwise the command is carried out. No taking is made unless the oldest frame is this command's and the
conditions of R161 hold. -/
def State.takeCommand (s : State) (c : HostCommand) (carryOut : Frame → State → State) : State :=
  match s.inbox with
  | [] => s
  | f :: rest =>
    if f.kind = c.code && s.canTake then
      let t := { s with inbox := rest }
      if t.parked.any fun e => e.tag = f.tag then t.answer f .tagInUse else carryOut f t
    else s

/-- Carries a command out on the probe its first field names; an id above 31 is refused NO_PROBE (R1). -/
def State.onProbe (f : Frame) (carryOut : Fin 32 → State → State) (s : State) : State :=
  if h : (byteAt f.payload 0).toNat < 32 then carryOut ⟨(byteAt f.payload 0).toNat, h⟩ s else s.answer f .noProbe

end Sys2Proof.Machine
end

