-- ==== Sys2Proof/Machine/NoticeQueue.lean ====
section
/-! DEFINITION. The notice queue: submission, coalescing, append, eviction, drop, merging at reversion, eligibility
(R114 to R122, R131). -/

namespace Sys2Proof.Machine

/-- The class, probe id and generation by which CROSSING, WATERMARK and OVERRUN notices coalesce and merge (R116, R117,
R122); CONDITION notices do neither. -/
def NoticeContent.key? : NoticeContent → Option (NoticeClass × Fin 32 × Byte)
  | .crossing i gen _ _ _ _ _ => some (.crossing, i, gen)
  | .watermark i gen _ _ => some (.watermark, i, gen)
  | .overrun i gen _ => some (.overrun, i, gen)
  | .condition _ => none

/-- A notice taking in the findings of a later one of its key: a CROSSING keeps its previous verdict, takes the new
verdict and value, sets the suspect flag if either is set and adds the merged counts; the others take the later payload
(R116, R117, R122). -/
def NoticeContent.absorb : NoticeContent → NoticeContent → NoticeContent
  | .crossing i gen previous _ _ suspect merged, .crossing _ _ _ new value suspect' merged' =>
    .crossing i gen previous new value (suspect || suspect') (satAdd merged merged')
  | _, later => later

/-- The notice is QUEUED. -/
def Notice.isQueued (n : Notice) : Bool := n.delivery = .queued

/-- The notice is SENT. -/
def Notice.isSent (n : Notice) : Bool := !n.isQueued

/-- The notice is QUEUED under this key: a target of coalescing and merging. -/
def Notice.isTarget (key : NoticeClass × Fin 32 × Byte) (n : Notice) : Bool :=
  n.isQueued && n.content.key? == some key

/-- Changes the first member a condition names. -/
def updateFirst {α : Type} (p : α → Bool) (f : α → α) : List α → List α
  | [] => []
  | x :: xs => if p x then f x :: xs else x :: updateFirst p f xs

/-- Removes the last member a condition names. -/
def eraseLast {α : Type} (p : α → Bool) (l : List α) : List α := (l.reverse.eraseP p).reverse

/-- The first sequence number from n on, modulo 65536, that none of these carries, looking past at most `fuel` of them
(R114). -/
def freshSeq (taken : List Half) : Nat → Half → Half
  | 0, n => n
  | fuel + 1, n => if n ∈ taken then freshSeq taken fuel (n + 1) else n

/-- The sequence number the next creation gives (R114). -/
def State.assignSeq (s : State) : Half :=
  freshSeq (s.notices.map Notice.seq) s.notices.length s.nextSeq

/-- Creates a notice at the end of the queue with the accumulated gap (R118). The stamp is the counter value at the
submitting event (R112). -/
def State.appendNotice (s : State) (c : NoticeContent) : State :=
  let n : Notice := ⟨s.assignSeq, c, s.counter, s.gapAcc, .queued, 0⟩
  { s with notices := s.notices ++ [n], nextSeq := s.assignSeq + 1, gapAcc := 0 }

/-- Counts one lost notice in the gap accumulator and the dropped-notice total (R121). -/
def State.countLoss (s : State) : State :=
  { s with gapAcc := satInc s.gapAcc, dropped := satInc s.dropped }

/-- A candidate for eviction: QUEUED and not a CONDITION notice (R119). -/
def Notice.evictable (n : Notice) : Bool := n.isQueued && n.content.cls != .condition

/-- Removes the most recently created evictable notice and counts the loss (R119). -/
def State.evict (s : State) : State :=
  { s with notices := eraseLast Notice.evictable s.notices }.countLoss

/-- A queued notice brought up to date by a submission: payload and stamp (R116, R117). -/
def Notice.coalesce (c : NoticeContent) (stamp : Tick) (n : Notice) : Notice :=
  { n with content := n.content.absorb c, stamp := stamp }

/-- A QUEUED notice that the submission coalesces into stands in the queue (R116, R117). -/
def State.hasTarget (s : State) (c : NoticeContent) : Bool :=
  match c.key? with
  | some key => s.notices.any (Notice.isTarget key)
  | none => false

/-- Merges a submission into its target (R116, R117). -/
def State.coalesceNotice (s : State) (c : NoticeContent) : State :=
  match c.key? with
  | some key => { s with notices := updateFirst (Notice.isTarget key) (Notice.coalesce c s.counter) s.notices }
  | none => s

/-- A submission handled whole: coalescing, append, eviction, drop, the first that applies (R115 to R120). -/
def State.submit (s : State) (c : NoticeContent) : State :=
  if s.hasTarget c then s.coalesceNotice c
  else if s.notices.length < Config.noticeCapacity then s.appendNotice c
  else if c.cls = .condition && s.notices.any Notice.evictable then s.evict.appendNotice c
  else s.countLoss

/-! ### Reversion and merging -/

/-- The kept notice of a merged set after taking in the next member: its findings and stamp are the later member's and
the gaps add up (R122). -/
def Notice.mergeIn (later : Notice) (kept : Notice) : Notice :=
  { kept with
    content := kept.content.absorb later.content
    stamp := later.stamp
    gap := satAdd kept.gap later.gap }

/-- Adds the next notice in creation order: a QUEUED one whose key an earlier QUEUED one has is merged into it (R122). -/
def mergeStep (kept : List Notice) (n : Notice) : List Notice :=
  match n.content.key? with
  | some key =>
    if n.isQueued && kept.any (Notice.isTarget key) then updateFirst (Notice.isTarget key) (Notice.mergeIn n) kept
    else kept ++ [n]
  | none => kept ++ [n]

/-- Merging at reversion: afterwards no two QUEUED notices share a key (R122). -/
def mergeQueued (notices : List Notice) : List Notice := notices.foldl mergeStep []

/-- A notice back in QUEUED after a timeout (R137). -/
def Notice.revert (n : Notice) : Notice := { n with delivery := .queued, retries := n.retries + 1 }

/-- A SENT notice whose age, modulo 2^32, has reached the timeout (R23, R137). DESIGN CHOICE (log 20): after a SET_TIME to L below
the sent stamp S, R137's last paragraph says that the notice times out at the next tick, and its difference L + 1 − S is not near
2^32 where L = S − 1 (it is 0) or where L lies just past the wrap of S. The difference decides: such a notice stays SENT. -/
def Notice.timedOut (now : Tick) (timeout : Byte) (n : Notice) : Bool :=
  match n.delivery with
  | .queued => false
  | .sent stamp => timeout.toNat ≤ (now - stamp).toNat

/-- A notice at a link reset: QUEUED with retries 0 and no sent stamp (R143). -/
def Notice.restart (n : Notice) : Notice := { n with delivery := .queued, retries := 0 }

/-! ### Eligibility and the window -/

/-- The notice may be sent next if it is the first such: QUEUED and of an unheld class (R131). -/
def Notice.sendable (held : ClassSet) (n : Notice) : Bool := n.isQueued && !held.has n.content.cls

/-- The eligible notice: the earliest-created QUEUED notice of an unheld class (R131). -/
def State.eligible (s : State) : Option Notice := s.notices.find? (Notice.sendable s.holdSet)

/-- The number of SENT notices (R132). -/
def State.sentCount (s : State) : Nat := s.notices.countP Notice.isSent

end Sys2Proof.Machine
end

