-- ==== Sys2Proof/Machine/Evaluate.lean ====
section
/-! DEFINITION. The evaluator and the history store at a counted completion (Chapters 4, 5 and 6): comparison levels, raw
verdicts, settling, escalation, converter health, the append. -/

namespace Sys2Proof.Machine

/-! ### Converter (R51, R52) -/

/-- The code a conversion yields: 0 below VREFL and 4095 above VREFH (R51). -/
def convert (level : Level) : Code := BitVec.ofNat 12 (min 4095 level.toNat)

/-- A gate answers HIGHER when the channel's code exceeds the comparison level (03, 3.4). -/
def gateAnswer (level : Level) (compare : Code) : Gate :=
  if compare.toNat < (convert level).toNat then .higher else .notHigher

/-! ### Raw verdicts (R67 to R69) -/

/-- The upper comparison level: high − h if the confirmed verdict is ABOVE, and high otherwise (R67). -/
def Window.upperLevel (w : Window) (c : Verdict) : Code :=
  if c = .above then BitVec.ofNat 12 (w.high.toNat - w.hysteresis.toNat) else w.high

/-- The lower comparison level: low + h − 1 if the confirmed verdict is BELOW, low − 1 otherwise, and absent below code 0
(R67). -/
def Window.lowerLevel (w : Window) (c : Verdict) : Option Code :=
  let floor := if c = .below then w.low.toNat + w.hysteresis.toNat else w.low.toNat
  if floor = 0 then none else some (BitVec.ofNat 12 (floor - 1))

/-- The raw verdict of a code under a confirmed verdict (R69, Table 4-1). -/
def Window.classify (w : Window) (c : Verdict) (v : Code) : RawVerdict :=
  if w.high.toNat < v.toNat ∨ (c = .above ∧ w.high.toNat - w.hysteresis.toNat < v.toNat) then .above
  else if v.toNat < w.low.toNat ∨ (c = .below ∧ v.toNat < w.low.toNat + w.hysteresis.toNat) then .below
  else .inside

/-- What a completed operation yields: a code to classify, a code to judge, or the raw verdict of a WINDOW run. -/
inductive RunResult where
  | level (code : Code)
  | check (code : Code)
  | window (raw : RawVerdict)
  deriving DecidableEq, Repr

/-- The result of an operation that ends with this level on its channel, or none where it cannot complete yet: a WINDOW
run completes after gate 1 if that answered HIGHER or there is no lower level, and otherwise at the end of gate 2 (R52,
R68). -/
def Operation.result? (op : Operation) (level : Level) : Option RunResult :=
  match op with
  | .level => some (.level (convert level))
  | .check => some (.check (convert level))
  | .window _ _ (.higher :: _) => some (.window .above)
  | .window _ none [.notHigher] => some (.window .inside)
  | .window _ (some lower) [.notHigher] =>
    some (.window (if gateAnswer level lower = .higher then .inside else .below))
  | .window _ _ _ => none

/-! ### Settling (R72 to R74) -/

/-- A raw verdict applied to the confirmed verdict and the candidate (R72). -/
def settleVerdict (settle : Nat) (c : Verdict) (k : Option Candidate) (r : RawVerdict) :
    Verdict × Option Candidate :=
  if c = .unknown then (r.toVerdict, none)
  else if c = r.toVerdict then (c, none)
  else
    let count := match k with
      | some k => if k.verdict = r then k.count + 1 else 1
      | none => 1
    if count = settle then (r.toVerdict, none) else (c, some ⟨r, count⟩)

/-- The settling step on a probe record (R65 step 3). -/
def Probe.settleBy (p : Probe) (w : Window) (r : RawVerdict) : Probe :=
  let (c, k) := settleVerdict w.settle p.confirmed p.candidate r
  { p with confirmed := c, candidate := k }

/-- The counts of a LEVEL or CHECK run: runs and last value (R71, R88). -/
def Probe.countCode (p : Probe) (v : Code) : Probe := { p with runs := satInc p.runs, lastValue := some v }

/-- The count of a WINDOW run: runs alone (R71). -/
def Probe.countGates (p : Probe) : Probe := { p with runs := satInc p.runs }

/-- The remaining count of an ESCALATED probe falls by one; at 0 the probe is WATCHING (R80). -/
def Probe.countDown (p : Probe) : Probe :=
  match p.mode with
  | some (.escalated n) => { p with mode := some (if n ≤ 1 then .watching else .escalated (n - 1)) }
  | _ => p

/-- A WINDOW run with this raw verdict escalates the probe: ADAPTIVE in WATCHING with a known confirmed verdict that
differs (R78). -/
def Probe.escalates (p : Probe) (d : Definition) (r : RawVerdict) : Option Nat :=
  match d.style, p.mode with
  | .adaptive _ n, some .watching => if p.confirmed ≠ .unknown ∧ p.confirmed ≠ r.toVerdict then some n else none
  | _, _ => none

/-- The probe record after the evaluator's steps 1 to 5 at a LEVEL completion (R65). -/
def Probe.afterLevel (p : Probe) (d : Definition) (v : Code) : Probe :=
  let settled := match d.style.window? with
    | some w => p.settleBy w (w.classify p.confirmed v)
    | none => p
  (settled.countCode v).countDown

/-- The probe record after the evaluator's steps 1 to 5 at a WINDOW completion (R65, R78). -/
def Probe.afterWindow (p : Probe) (d : Definition) (r : RawVerdict) : Probe :=
  let escalated := match p.escalates d r with
    | some n => { p with mode := some (.escalated n) }
    | none => p
  let settled := match d.style.window? with
    | some w => escalated.settleBy w r
    | none => escalated
  settled.countGates

/-! ### Findings at a completion -/

/-- Converter health is SUSPECT. -/
def Health.isSuspect : Health → Bool
  | .good => false
  | .suspect _ => true

/-- The CROSSING notice of a settling step that moved the confirmed verdict from `before`: an adoption is reported if
INITIAL is in the notify set, a crossing if CROSSING is (R73 to R75). -/
def State.reportMove (s : State) (i : Fin 32) (d : Definition) (before : Verdict) (r : RawVerdict)
    (value : Option Code) : State :=
  let p := s.probe i
  if p.confirmed ≠ before ∧ (if before = .unknown then d.notify.initial else d.notify.crossing) then
    s.submit (.crossing i p.generation before r value s.health.isSuspect 1)
  else s

/-- A check passes if the code differs from 2458 by the tolerance or less (R86). -/
def checkPasses (tolerance : Byte) (v : Code) : Bool :=
  v.toNat ≤ Config.referenceCode + tolerance.toNat ∧ Config.referenceCode ≤ v.toNat + tolerance.toNat

/-- The health after a counted check (R87, Table 5-2). -/
def Health.afterCheck : Health → Bool → Health
  | .good, true => .good
  | .good, false => .suspect false
  | .suspect false, true => .suspect true
  | .suspect true, true => .good
  | .suspect _, false => .suspect false

/-- A counted check moves the health, and submits a CONDITION notice when it enters or leaves SUSPECT (R87, R89). -/
def State.judgeCheck (s : State) (v : Code) : State :=
  let h := s.health.afterCheck (checkPasses s.tolerance v)
  let t := { s with health := h }
  match s.health.isSuspect, h.isSuspect with
  | false, true => t.submit (.condition .converterSuspect)
  | true, false => t.submit (.condition .converterGood)
  | _, _ => t

/-! ### The append (R98 to R101) -/

/-- The ring with a record appended, and the oldest pushed out of a full ring (R100). -/
def Probe.appendRecord (p : Probe) (depth : Nat) (h : HistoryRecord) : Probe :=
  if p.ring.length < depth then { p with ring := p.ring ++ [h] }
  else { p with ring := p.ring.tail ++ [h], overwritten := satInc p.overwritten }

/-- The append raises the fill to the watermark with the watermark-reached flag clear (R101). -/
def Probe.reachesWatermark (p : Probe) (d : Definition) : Bool :=
  p.ring.length < d.depth && p.ring.length + 1 == d.watermark && !p.watermarkReached

/-- The history store's step of a counted completion: append the record if the depth is 1 or more, and raise the
watermark (R98, R101). -/
def State.appendHistory (s : State) (i : Fin 32) (d : Definition) (h : HistoryRecord) : State :=
  if d.depth = 0 then s
  else
    let p := s.probe i
    let q := p.appendRecord d.depth h
    if p.reachesWatermark d then
      let t := s.setProbe i { q with watermarkReached := true }
      if d.notify.watermark then t.submit (.watermark i p.generation (p.ring.length + 1) d.depth) else t
    else s.setProbe i q

/-- The scheduler's step of a counted completion: the overrun latch is cleared (R38). -/
def State.clearLatch (s : State) (i : Fin 32) : State :=
  s.setProbe i { s.probe i with overrunLatch := false }

/-- The record of a run as health stands now (R99). -/
def State.recordOf (s : State) (e : ScheduledEntry) (data : RunData) : HistoryRecord :=
  ⟨s.counter, data, s.health.isSuspect, e.followUp⟩

/-- The evaluator's step of R53, with the run's contribution to its history record. -/
def State.evaluateRun (s : State) (i : Fin 32) (d : Definition) (r : RunResult) : State × RunData :=
  let p := s.probe i
  match r with
  | .level v =>
    let t := s.setProbe i (p.afterLevel d v)
    match d.style.window? with
    | some w =>
      let raw := w.classify p.confirmed v
      (t.reportMove i d p.confirmed raw (some v), .level v (some raw))
    | none => (t, .level v none)
  | .window raw =>
    let t := (s.setProbe i (p.afterWindow d raw)).reportMove i d p.confirmed raw none
    let follows := (p.escalates d raw).isSome && s.scheduler = .running
    (if follows then t.queueScheduled i true else t, .window raw)
  | .check v =>
    ((s.setProbe i (p.countCode v)).judgeCheck v, .check v (!checkPasses s.tolerance v))

/-- A counted completion: evaluator, scheduler, history store, in this order (R53). -/
def State.countRun (s : State) (e : ScheduledEntry) (d : Definition) (r : RunResult) : State :=
  let (t, data) := s.evaluateRun e.probe d r
  (t.clearLatch e.probe).appendHistory e.probe d (t.recordOf e data)

/-- The definition of the run's probe if the run counts: the probe is ARMED and its generation is the run's (R4, R53). -/
def State.countedDefn (s : State) (e : ScheduledEntry) : Option Definition :=
  let p := s.probe e.probe
  if p.state = .armed ∧ p.generation = e.generation then p.defn else none

/-- The drain completion: a DRAINING scheduler becomes STOPPED and every awaited PAUSE is answered OK with the counter
value (R31). -/
def State.completeDrain (s : State) : State :=
  if s.scheduler = .draining then
    { s with scheduler := .stopped }.fixOutcomes ParkedEntry.isPause (.counter s.counter)
  else s

end Sys2Proof.Machine
end

