-- ==== Sys2Proof/Machine/TickWork.lean ====
section
/-! DEFINITION. What a tick and a good frame bring about: alignment, the due check, the timeout examination, the receiver's
examination, the receipt, and their settling before any other event (R33 to R37, R137, R151, R152; log 4, log 5). -/

namespace Sys2Proof.Machine

/-! ### Alignment (R33) -/

/-- The next due by alignment against counter value c: the first value after c, with 4294967295 followed by 0, that
leaves remainder `phase` when divided by `period` (R33). -/
def align (c : Tick) (period phase : Half) : Tick :=
  let first := c.toNat + 1
  let v := first + (phase.toNat + (period.toNat - first % period.toNat)) % period.toNat
  if v < 2 ^ 32 then BitVec.ofNat 32 v else phase.setWidth 32

/-- The record with its next due aligned against c if it is ARMED (R27). -/
def Probe.aligned (c : Tick) (p : Probe) : Probe :=
  match p.state, p.defn with
  | .armed, some d => { p with nextDue := some (align c d.period d.phase) }
  | _, _ => p

/-! ### The due check (R35 to R37) -/

/-- A run of the probe is still waiting or in flight: a SCHEDULED entry of whatever generation is queued, or a scheduled
operation of the current generation is in flight (R35). -/
def State.runOutstanding (s : State) (i : Fin 32) : Bool :=
  s.dueQueue.any (DueEntry.isScheduledOf i) ||
    match s.engine with
    | .busy { entry := .scheduled e, .. } => e.probe == i && e.generation == (s.probe i).generation
    | _ => false

/-- An overrun of probe i: the count rises, and with OVERRUN in the notify set and the latch clear, the latch is set and
a notice submitted (R37). -/
def State.countOverrun (s : State) (i : Fin 32) (d : Definition) : State :=
  let p := s.probe i
  let count := satInc p.overruns
  if d.notify.overrun && !p.overrunLatch then
    (s.setProbe i { p with overruns := count, overrunLatch := true }).submit (.overrun i p.generation count)
  else s.setProbe i { p with overruns := count }

/-- The next due of probe i moved forward by its period, modulo 2^32 (R34). -/
def State.advanceDue (s : State) (i : Fin 32) (d : Definition) : State :=
  let p := s.probe i
  s.setProbe i { p with nextDue := p.nextDue.map fun v => v + d.period.setWidth 32 }

/-- The due check's visit to probe i: an ARMED probe whose next due is the counter value counts an overrun or has an
entry queued, and its next due advances (R35). -/
def State.dueVisit (s : State) (i : Fin 32) : State :=
  let p := s.probe i
  match p.state, p.defn with
  | .armed, some d =>
    if p.nextDue = some s.counter then
      let t := if s.runOutstanding i then s.countOverrun i d else s.queueScheduled i false
      t.advanceDue i d
    else s
  | _, _ => s

/-- The due check: made in RUNNING alone, over the probes in ascending order of id (R35, R36). -/
def State.dueCheckNow (s : State) : State :=
  if s.scheduler = .running then (List.finRange 32).foldl State.dueVisit s else s

/-! ### The timeout examination (R137) -/

/-- Every notice that times out returns to QUEUED with its retries raised, a notice brought to retries 4 sets MUTE, and the
sets of QUEUED notices this forms are merged (R137, R139, R122). -/
def State.examineTimeouts (s : State) : State :=
  let out := Notice.timedOut s.counter s.ackTimeout
  if s.notices.any out then
    { s with
      notices := mergeQueued (s.notices.map fun n => if out n then n.revert else n)
      mute := s.mute || s.notices.any fun n => out n && n.revert.retries == Config.muteRetries }
  else s

/-! ### The receiver's examination (R151) -/

/-- In HEADER or BODY the quiet count rises by one, and at 2 the frame is abandoned and counted (R151). DESIGN CHOICE (log 22):
R151 gives the quiet count no value in HUNT after the abandonment; the model sets it to 0. -/
def State.examineGap (s : State) : State :=
  match s.receiver.phase with
  | .hunt => s
  | .header | .body =>
    if Config.quietLimit ≤ s.receiver.quiet + 1 then
      { s with
        receiver := Receiver.hunting
        counters := { s.counters with gapErrors := satInc s.counters.gapErrors } }
    else { s with receiver := { s.receiver with quiet := s.receiver.quiet + 1 } }

/-! ### The receipt (R140, R152) -/

/-- One more inbox overflow (R158). -/
def State.countOverflow (s : State) : State :=
  { s with counters := { s.counters with inboxOverflows := satInc s.counters.inboxOverflows } }

/-- A good frame ends MUTE and sets the retries of every notice to 0 (R140). -/
def State.endMute (s : State) : State :=
  { s with mute := false, notices := s.notices.map fun n => { n with retries := 0 } }

/-- The receipt of a good frame: MUTE ends, and the frame is refused BAD_FRAME, placed in the inbox, or refused BUSY; a
refusal that finds no free reply slot is dropped and counted (R152). -/
def State.receive (s : State) (kind tag : Byte) (payload : List Byte) : State :=
  let t := s.endMute
  match judgeFrame kind payload.length with
  | none => if t.replySlot then t.queueReply ⟨tag, kind, .badFrame⟩ else t.countOverflow
  | some _ =>
    if t.inbox.length < Config.inboxCapacity then { t with inbox := t.inbox ++ [⟨kind, tag, payload, s.mute⟩] }
    else if t.replySlot then t.countOverflow.queueReply ⟨tag, kind, .busy⟩
    else t.countOverflow

/-! ### Owed work -/

/-- The due check of the last tick, if still owed. -/
def State.runDueCheck (s : State) : State :=
  if s.owed.dueCheck then { s with owed := { s.owed with dueCheck := false } }.dueCheckNow else s

/-- The timeout examination of the last tick, if still owed. -/
def State.runTimeouts (s : State) : State :=
  if s.owed.timeouts then { s with owed := { s.owed with timeouts := false } }.examineTimeouts else s

/-- The receiver's examination of the last tick, if still owed. -/
def State.runGap (s : State) : State :=
  if s.owed.gap then { s with owed := { s.owed with gap := false } }.examineGap else s

/-- The receipt of the last good frame, if still owed. -/
def State.runReceipt (s : State) : State :=
  match s.owed.receipt with
  | some (kind, tag, payload) => { s with owed := { s.owed with receipt := none } }.receive kind tag payload
  | none => s

/-- Everything owed is done, so that a tick and a receipt are whole to every other event (log 4, log 5). -/
def State.settled (s : State) : State := s.runReceipt.runDueCheck.runTimeouts.runGap

/-- An event of the part: none happens while it is held in reset (log 11). -/
def State.unlessReset (s : State) (event : State → State) : State := if s.inReset then s else event s

/-- An event after what is owed (log 4, log 5). -/
def State.act (s : State) (event : State → State) : State := s.unlessReset fun t => event t.settled

/-- The taking of a host command after what is owed (R161). -/
def State.serve (s : State) (c : HostCommand) (carryOut : Frame → State → State) : State :=
  s.act fun t => t.takeCommand c carryOut

/-- The tick: the counter advances, the divider restarts, and the examinations of the tick are owed (R22, R23). -/
def State.advanceTick (s : State) : State :=
  { s with counter := s.counter + 1, divider := 0, elapsed := s.elapsed + 1, owed := Owed.tick }

/-- One crystal period: the 256th since the last tick is the tick (R22). -/
def State.crystalPeriod (s : State) : State :=
  if s.divider = 255 then s.advanceTick else { s with divider := s.divider + 1 }

end Sys2Proof.Machine
end

