-- ==== Sys2Proof/Machine/Converter.lean ====
section
/-! DEFINITION. The measurement engine: QUIESCE_ASSERTED, QUIESCE_RELEASED, TAKE, GATE_1_END, SCHEDULED_COMPLETION,
ONE_SHOT_COMPLETION (Chapter 3). -/

namespace Sys2Proof.Machine

/-- The parked entry of a link exists and its outcome is awaited (R54, R58). -/
def State.linkAwaited (s : State) (link : Nat) : Bool := s.parked.any fun e => e.link == link && e.awaited

/-- The abandonment of the operation in flight (R58): a scheduled one is discarded and completes a drain; a one-shot whose
MEASURE is awaited is re-inserted at the head; any other is discarded. -/
def State.abandon (s : State) (op : InFlight) : State :=
  match op.entry with
  | .scheduled _ => s.completeDrain
  | .oneShot e => if s.linkAwaited e.link then { s with dueQueue := .oneShot e :: s.dueQueue } else s

/-- The assertion of QUIESCE: the engine becomes QUIESCED, the operation in flight is abandoned, and a QUIESCE_ON notice is
submitted (R58). -/
def State.quiesce (s : State) : State :=
  let t := { s with engine := .quiesced }
  match s.engine with
  | .busy op => (t.abandon op).submit (.condition .quiesceOn)
  | .idle => t.submit (.condition .quiesceOn)
  | .quiesced => s

/-- QUIESCE_ASSERTED: the line goes high. An asserted line has no such edge. -/
def execQuiesceAsserted (s : State) : Host.Outcome State Fault Refusal := .next (s.act State.quiesce)

/-- The release of QUIESCE: the engine becomes IDLE and a QUIESCE_OFF notice is submitted (R59). -/
def State.unquiesce (s : State) : State :=
  match s.engine with
  | .quiesced => { s with engine := .idle }.submit (.condition .quiesceOff)
  | .idle | .busy _ => s

/-- QUIESCE_RELEASED: the line goes low. A released line has no such edge. -/
def execQuiesceReleased (s : State) : Host.Outcome State Fault Refusal := .next (s.act State.unquiesce)

/-- The operation the engine chooses from the entry and the probe as it stands (R50), with the comparison levels of a WINDOW
run (R67). -/
def chooseOperation (e : DueEntry) (p : Probe) (d : Definition) : Operation :=
  let windowRun := fun (w : Window) => Operation.window (w.upperLevel p.confirmed) (w.lowerLevel p.confirmed) []
  match e with
  | .oneShot _ => .level
  | .scheduled _ =>
    match d.style with
    | .level _ => .level
    | .window w => windowRun w
    | .adaptive w _ => if p.mode = some .watching then windowRun w else .level
    | .check => .check

/-- The take: an IDLE engine removes the head of the due queue, fills the in-flight record and starts the converter (R49,
R50). The probe of a queued entry always has a definition (log 17). -/
def State.takeEntry (s : State) : State :=
  match s.engine, s.dueQueue with
  | .idle, e :: rest =>
    match (s.probe e.probe).defn with
    | some d =>
      { s with
        dueQueue := rest
        engine := .busy ⟨e, chooseOperation e (s.probe e.probe) d, d.channel⟩ }
    | none => s
  | _, _ => s

/-- TAKE: no take is made if the queue is empty or the engine is not IDLE (R49). -/
def execTake (s : State) : Host.Outcome State Fault Refusal := .next (s.act State.takeEntry)

/-- The end of gate 1: its answer against the upper level is recorded (R52). -/
def State.endGate1 (s : State) (level : Level) : State :=
  match s.engine with
  | .busy ⟨e, .window upper lower [], channel⟩ =>
    { s with engine := .busy ⟨e, .window upper lower [gateAnswer level upper], channel⟩ }
  | _ => s

/-- GATE_1_END: internal to a WINDOW run (R52). -/
def execGate1End (level : Level) (s : State) : Host.Outcome State Fault Refusal := .next (s.act fun t => t.endGate1 level)

/-- The completion of a SCHEDULED operation (R53): counted if the probe is ARMED under the run's generation, stale
otherwise, and then the drain completion if the scheduler is DRAINING (R31). -/
def State.completeScheduled (s : State) (level : Level) : State :=
  match s.engine with
  | .busy ⟨.scheduled e, op, _⟩ =>
    match op.result? level with
    | some r =>
      let t := { s with engine := .idle }
      (match t.countedDefn e with
       | some d => t.countRun e d r
       | none => t).completeDrain
    | none => s
  | _ => s

/-- SCHEDULED_COMPLETION: the scheduled operation in flight ends; a WINDOW run whose gate 2 was begun ends with that gate
(R52, R53). -/
def execScheduledCompletion (level : Level) (s : State) : Host.Outcome State Fault Refusal :=
  .next (s.act fun t => t.completeScheduled level)

/-- The completion of a ONE_SHOT operation (R54): the awaited MEASURE of its parked link is answered OK with the code and the
suspect flag; otherwise the code is discarded. -/
def State.completeOneShot (s : State) (level : Level) : State :=
  match s.engine with
  | .busy ⟨.oneShot e, _, _⟩ =>
    { s with engine := .idle }.fixOutcomes (fun p => p.link = e.link)
      (.measured e.probe (convert level) s.health.isSuspect)
  | _ => s

/-- ONE_SHOT_COMPLETION (R54). -/
def execOneShotCompletion (level : Level) (s : State) : Host.Outcome State Fault Refusal :=
  .next (s.act fun t => t.completeOneShot level)

end Sys2Proof.Machine
end

