-- ==== Sys2Proof/Machine/Operands.lean ====
section
/-! DEFINITION. The checks of the fields that commands carry (R7 to R10, R16, R103, R175): an accepted value, or the number
of the first field that violates its condition (Table 1-3 and R103). -/

namespace Sys2Proof.Machine

/-- Whether a style needs a window, bars one, or takes either (R9). -/
inductive WindowNeed where
  | required | barred | optional
  deriving DecidableEq, Repr

/-- The marker of an absent window (R175). -/
def absentWindow : Half := 0xFFFF

/-- Fields 6, 7 and 8: the window, hysteresis and settle under the condition of R9. An absent window leaves the low,
hysteresis and settle unexamined (R175). -/
def checkWindow (need : WindowNeed) (high low : Half) (hysteresis settle : Byte) : Except Byte (Option Window) :=
  if high = absentWindow then if need = .required then .error 6 else .ok none
  else if need = .barred then .error 6
  else if 4095 < high.toNat ∨ 4095 < low.toNat ∨ high.toNat < low.toNat then .error 6
  else if high.toNat - low.toNat < hysteresis.toNat then .error 7
  else if settle.toNat < 1 ∨ 8 < settle.toNat then .error 8
  else .ok (some ⟨high.setWidth 12, low.setWidth 12, hysteresis, settle.toNat⟩)

/-- Fields 1 and 2: the channel and the style code, which agree when CHECK stands with channel 16 (R7). -/
def checkChannel (channel : Byte) (style : BitVec 4) : Except Byte (Fin 17) :=
  if h : channel.toNat < 17 then
    if 3 < style.toNat ∨ (style.toNat = 3) ≠ (channel.toNat = 16) then .error 2 else .ok ⟨channel.toNat, h⟩
  else .error 1

/-- The window condition of a style code (R9). -/
def windowNeed (style : BitVec 4) : WindowNeed :=
  if style.toNat = 0 then .optional else if style.toNat = 3 then .barred else .required

/-- The style of a code with the window and confirm runs checked for it; field 9 is examined for ADAPTIVE alone (R10). -/
def makeStyle (style : BitVec 4) (window : Option Window) (confirmRuns : Byte) : Except Byte Style :=
  match style.toNat, window with
  | 0, w => .ok (.level w)
  | 1, some w => .ok (.window w)
  | 2, some w =>
    if confirmRuns.toNat < 1 ∨ 16 < confirmRuns.toNat then .error 9 else .ok (.adaptive w confirmRuns.toNat)
  | _, _ => .ok .check

/-- The definition fields one by one in the order of their field numbers: the definition, or the first field that violates
its condition (R6 step 3, R7 to R10). -/
def checkDefinition (f : DefineFields) : Except Byte Definition :=
  match checkChannel f.channel f.style with
  | .error k => .error k
  | .ok channel =>
    if f.period.toNat < 1 then .error 3
    else if f.period.toNat ≤ f.phase.toNat then .error 4
    else if 3 < f.cls.toNat then .error 5
    else
      match checkWindow (windowNeed f.style) f.high f.low f.hysteresis f.settle with
      | .error k => .error k
      | .ok window =>
        match makeStyle f.style window f.confirmRuns with
        | .error k => .error k
        | .ok style =>
          if 64 < f.depth.toNat then .error 10
          else if f.depth.toNat < f.watermark.toNat then .error 11
          else
            match NotifySet.ofByte f.notify with
            | none => .error 12
            | some notify =>
              .ok ⟨channel, style, f.period, f.phase, Fin.ofNat 4 f.cls.toNat, f.depth.toNat, f.watermark.toNat,
                notify⟩

/-- The window condition of a defined probe's style for SET_LIMITS (R16 step 4). -/
def Style.need : Style → WindowNeed
  | .level _ => .optional
  | .window _ | .adaptive _ _ => .required
  | .check => .barred

/-- The style with its window replaced (R17). A style that requires a window keeps the one it has when none is given,
which R16 refuses. -/
def Style.withWindow : Style → Option Window → Style
  | .level _, w => .level w
  | .window _, some w => .window w
  | .adaptive _ n, some w => .adaptive w n
  | st, _ => st

/-- Skip, count and drain of READ_HISTORY, fields 13, 14 and 15 (R103). -/
def checkHistory (skip count drain : Byte) : Except Byte (Nat × Nat × Bool) :=
  if 63 < skip.toNat then .error 13
  else if count.toNat < 1 ∨ 6 < count.toNat then .error 14
  else if 1 < drain.toNat then .error 15
  else .ok (skip.toNat, count.toNat, drain = 1)

/-- An indication, 0 for no and 1 for yes (R175). -/
def indication? (b : Byte) : Option Bool := if b = 0 then some false else if b = 1 then some true else none

end Sys2Proof.Machine
end

