-- ==== Sys2Proof/Machine/History.lean ====
section
/-! DEFINITION. READ_HISTORY (06, 6.4). -/

namespace Sys2Proof.Machine

/-- The records at positions skip to skip + count − 1, where they exist (R104). -/
def Probe.window (p : Probe) (skip count : Nat) : List HistoryRecord := (p.ring.drop skip).take count

/-- The probe after a drain that returned k records from position skip on (R105): the returned and older records are
removed, none if k is 0; the overwritten count is cleared, and the watermark-reached flag too if the fill is now below the
watermark (R102). -/
def Probe.drain (p : Probe) (d : Definition) (skip k : Nat) : Probe :=
  let ring := if k = 0 then p.ring else p.ring.drop (skip + k)
  { p with
    ring := ring
    overwritten := 0
    watermarkReached := if ring.length < d.watermark then false else p.watermarkReached }

/-- READ_HISTORY carried out on probe i (R103 to R105). -/
def State.readRing (f : Frame) (i : Fin 32) (s : State) : State :=
  let p := s.probe i
  match p.state, p.defn with
  | .free, _ | _, none => s.answer f (.wrongState p.state)
  | _, some d =>
    match checkHistory (byteAt f.payload 1) (byteAt f.payload 2) (byteAt f.payload 3) with
    | .error field => s.answer f (.badValue field)
    | .ok (skip, count, drain) =>
      let records := p.window skip count
      let t := if drain then s.setProbe i (p.drain d skip records.length) else s
      t.answer f (.history p.ring.length p.overwritten records)

/-- READ_HISTORY (R103 to R105). -/
def execReadHistory (s : State) : Host.Outcome State Fault Refusal :=
  .next (s.serve .readHistory fun f => State.onProbe f (State.readRing f))

end Sys2Proof.Machine
end

