-- ==== Sys2Proof/Machine/Resets.lean ====
section
/-! DEFINITION. Resets: POWER_RESET, PIN_RESET, the soft reset that a transmission completion brings about, the link reset
that a break brings about (R21, R42, R60, R61, R126, R127, R143, R155, R171 to R173). -/

namespace Sys2Proof.Machine

/-- The end of a power or pin reset: every item at its reset value, the rate and the QUIESCE level sampled (R57, R146). The
supply, the level of RESET# and the model's queue of commands are no part of the block. -/
def State.hardReset (s : State) (cause : ResetCause) (pins : ResetPins) : State :=
  { State.afterReset cause (LinkRate.ofStraps pins.rate1 pins.rate0) pins.quiesce pins.rxdHigh with
    powerReset := s.powerReset
    pinReset := s.pinReset
    pending := s.pending }

/-- A power reset begins or ends, or RESET# goes low or high (R125, R156). A soft reset holds nothing. -/
def State.markReset (s : State) (lasts : Bool) : ResetCause → State
  | .power => { s with powerReset := lasts }
  | .pin => { s with pinReset := lasts }
  | .soft => s

/-- The beginning of a power or pin reset: the converter is stopped, the in-flight record and the due queue are emptied (R60),
the parked list is emptied (R21), the transmitter is stopped, MUTE is cleared and the acknowledgement timeout is 32 (R144). What
R57, R126, R146 and R168 give at the end of the reset waits for it: the level of QUIESCE, the STARTUP notice, the rate, the cause.
DESIGN CHOICE (log 11): every other item takes its reset value already here, the notice queue is empty, and the engine is IDLE
unless it is QUIESCED. -/
def State.enterReset (s : State) : State :=
  { State.afterReset s.resetCause s.rate s.quiesceLine s.rxdHigh with
    notices := []
    nextSeq := 0
    powerReset := s.powerReset
    pinReset := s.pinReset
    pending := s.pending }

/-- A power reset or a RESET# pulse begins or ends. While either lasts the part is held in reset: its lines are released (R125,
R156) and nothing else can be seen of it (log 11). DESIGN CHOICE (log 11): where the two overlap, each end sets every item and
names its own cause in STARTUP, so the part leaves reset at the last end, with that end's cause. -/
def State.resetEvent (s : State) (cause : ResetCause) : ResetEvent → State
  | .begins => s.enterReset.markReset true cause
  | .ends pins => (s.hardReset cause pins).markReset false cause

/-- POWER_RESET: cause POWER (R126). -/
def execPowerReset (event : ResetEvent) (s : State) : Host.Outcome State Fault Refusal :=
  .next (s.resetEvent .power event)

/-- PIN_RESET: cause PIN (R126). -/
def execPinReset (event : ResetEvent) (s : State) : Host.Outcome State Fault Refusal :=
  .next (s.resetEvent .pin event)

/-- The soft reset takes effect: as a pin reset, but the straps are not sampled and the cause is SOFT (R171). The QUIESCE
line is sampled (R57). -/
def State.softReset (s : State) : State :=
  { State.afterReset .soft s.rate s.quiesceLine s.rxdHigh with pending := s.pending }

/-- The notices at a link reset: every SENT one returns to QUEUED, every retries is 0, and the sets that the returns have
formed are merged (R143, R122). -/
def State.restartedNotices (s : State) : List Notice :=
  let restarted := s.notices.map Notice.restart
  if s.notices.any Notice.isSent then mergeQueued restarted else restarted

/-- The link reset (R155): the receiver enters HUNT, the transmitter aborts its frame and is HELD, inbox, parked list and
reply queue are emptied without replies (R172), a pending soft reset is cancelled (R171), the ONE_SHOT entries are removed
(R61), and MUTE and the hold set are cleared (R143). -/
def State.linkReset (s : State) : State :=
  { s with
    receiver := Receiver.hunting
    transmitter := .held
    inbox := []
    parked := []
    replies := []
    softResetPending := false
    dueQueue := s.dueQueue.filter fun e => !e.isOneShot
    notices := s.restartedNotices
    mute := false
    holdSet := ClassSet.empty
    rxdHigh := false }

/-- One link reset, however long RXD then stays low (R154): while the transmitter is HELD the break is the one already
detected. -/
def State.detectBreak (s : State) : State := if s.transmitter = .held then s else s.linkReset

/-- BREAK (R154). -/
def execBreak (s : State) : Host.Outcome State Fault Refusal := .next (s.act State.detectBreak)

/-- RXD returns high, and a HELD transmitter becomes FREE (R154, R155). -/
def State.endBreak (s : State) : State :=
  if s.transmitter = .held then { s with transmitter := .free, rxdHigh := true } else { s with rxdHigh := true }

/-- END_OF_BREAK (R154, R155). -/
def execEndOfBreak (s : State) : Host.Outcome State Fault Refusal := .next (s.act State.endBreak)

end Sys2Proof.Machine
end

