-- ==== Sys2Proof/Machine/Link.lean ====
section
/-! DEFINITION. The link: BYTE_ARRIVAL, RECEIPT, the transmission starts and TRANSMISSION_COMPLETION (Chapters 8 and 9). -/

namespace Sys2Proof.Machine

/-! ### Receiver -/

/-- A byte examined in HUNT: SYNC begins a frame, any other byte is discarded (R149). DESIGN CHOICE (log 21): the count of bytes
still expected is 3 at the beginning of HEADER. -/
def huntByte (b : Byte) : Receiver :=
  if b = Config.sync then ⟨.header, [], 3, 0⟩ else Receiver.hunting

/-- A byte arriving in HEADER (R149): a LEN above 56 is a length error and is examined again in HUNT; after TAG the receiver
enters BODY, expecting LEN + 2 bytes. DESIGN CHOICE (log 21): until then the count of bytes still expected is that of the header
bytes missing, 3, 2, 1. -/
def State.headerByte (s : State) (b : Byte) : State :=
  match s.receiver.bytes with
  | [] =>
    if Config.maxPayload < b.toNat then
      { s with
        receiver := huntByte b
        counters := { s.counters with lengthErrors := satInc s.counters.lengthErrors } }
    else { s with receiver := ⟨.header, [b], 2, 0⟩ }
  | [len] => { s with receiver := ⟨.header, [len, b], 1, 0⟩ }
  | len :: rest => { s with receiver := ⟨.body, len :: rest ++ [b], len.toNat + 2, 0⟩ }

/-- The end of a frame (R150): the check sequence computed over LEN to PAYLOAD is compared with the two bytes received. A
mismatch is counted; a match is the receipt, which is then owed (R152, log 5). -/
def State.endFrame (s : State) (bytes : List Byte) : State :=
  let checked := bytes.take (bytes.length - 2)
  let t := { s with receiver := Receiver.hunting }
  if fcs checked = halfAt bytes (bytes.length - 2) then
    { t with
      owed := { t.owed with
        receipt := some (byteAt checked 1, byteAt checked 2, checked.drop 3) } }
  else { t with counters := { t.counters with checkErrors := satInc t.counters.checkErrors } }

/-- A byte arriving in BODY (R149). -/
def State.bodyByte (s : State) (b : Byte) : State :=
  let bytes := s.receiver.bytes ++ [b]
  if s.receiver.expected ≤ 1 then s.endFrame bytes
  else { s with receiver := ⟨.body, bytes, s.receiver.expected - 1, 0⟩ }

/-- The arrival of a byte (R149). -/
def State.arrive (s : State) (b : Byte) : State :=
  match s.receiver.phase with
  | .hunt => { s with receiver := huntByte b }
  | .header => s.headerByte b
  | .body => s.bodyByte b

/-- The end of a character: one whose stop bit is sampled high delivers its byte; one with a low stop bit is discarded and
leaves the receiver as it is (R145). None ends during a break: the receiver finds its next start bit after the end of the
break (R155). -/
def State.endCharacter (s : State) (c : Character) : State :=
  if s.transmitter = .held then s
  else if c.stopHigh then { s with rxdHigh := true }.arrive c.byte
  else { s with rxdHigh := false }

/-- BYTE_ARRIVAL (R145, R149). -/
def execByteArrival (data : Vector Bool 8) (stopHigh : Bool) (s : State) : Host.Outcome State Fault Refusal :=
  .next (s.act fun t => t.endCharacter ⟨data, stopHigh⟩)

/-- RECEIPT: the good frame received last is handed on, once (R152). -/
def execReceipt (s : State) : Host.Outcome State Fault Refusal := .next (s.unlessReset State.runReceipt)

/-! ### Transmitter -/

/-- The start of a reply's transmission: the oldest reply leaves the reply queue, and the transmitter copies it (R156). -/
def State.startReply (s : State) : State :=
  match s.transmitter, s.replies with
  | .free, r :: rest => { s with transmitter := .sending (.reply r), replies := rest }
  | _, _ => s

/-- REPLY_TRANSMISSION_START: made when the transmitter is FREE and the reply queue holds a reply (R157). -/
def execReplyTransmissionStart (s : State) : Host.Outcome State Fault Refusal := .next (s.act State.startReply)

/-- The conditions of a notice frame's start (R132). -/
def State.mayStartNotice (s : State) : Bool :=
  !s.mute && s.sentCount < Config.sendWindow && s.transmitter = .free && s.replies.isEmpty

/-- The start of a notice frame: the eligible notice becomes SENT with the counter value as its sent stamp, and the
transmitter copies it (R133). -/
def State.startNotice (s : State) : State :=
  match s.eligible with
  | some n =>
    if s.mayStartNotice then
      { s with
        notices := updateFirst (Notice.sendable s.holdSet) (fun n => { n with delivery := .sent s.counter }) s.notices
        transmitter := .sending (.notice n) }
    else s
  | none => s

/-- NOTICE_TRANSMISSION_START: made when an eligible notice exists and the conditions of R132 hold. -/
def execNoticeTransmissionStart (s : State) : Host.Outcome State Fault Refusal := .next (s.act State.startNotice)

/-- The end of a frame's transmission: the transmitter is FREE, and the completion of the SOFT_RESET reply makes the soft
reset take effect (R156, R171). -/
def State.completeTransmission (s : State) : State :=
  match s.transmitter with
  | .sending (.reply ⟨_, _, .softReset⟩) => s.softReset
  | .sending _ => { s with transmitter := .free }
  | .free | .held => s

/-- TRANSMISSION_COMPLETION: the last stop bit of the frame ends (R156). -/
def execTransmissionCompletion (s : State) : Host.Outcome State Fault Refusal :=
  .next (s.act State.completeTransmission)

end Sys2Proof.Machine
end

