-- ==== Sys2Proof/Machine/ProbeCommands.lean ====
section
/-! DEFINITION. The probe commands: DEFINE, ARM, DISARM, DELETE, SET_LIMITS, READ_PROBE (Chapter 1) and MEASURE (03, 3.6). -/

namespace Sys2Proof.Machine

/-- The runtime fields of a probe just defined (R11): a new generation, an empty ring, WATCHING for ADAPTIVE. -/
def Probe.define (p : Probe) (d : Definition) : Probe :=
  { Probe.cleared (p.generation + 1) with
    state := .defined
    defn := some d
    mode := d.style.confirmRuns?.map fun _ => .watching }

/-- DEFINE carried out on probe i: the state, the fields, the pool, then the effects of R11 (R6). -/
def State.defineProbe (f : Frame) (i : Fin 32) (s : State) : State :=
  let p := s.probe i
  if p.state ≠ .free then s.answer f (.wrongState p.state)
  else
    match checkDefinition (defineFields f.payload) with
    | .error field => s.answer f (.badValue field)
    | .ok d =>
      if s.freeCount < d.depth then s.answer f (.noRoom s.freeCount)
      else
        { s.setProbe i (p.define d) with freeCount := s.freeCount - d.depth }.answer f
          (.defined (p.generation + 1) (s.freeCount - d.depth))

/-- DEFINE (R6, R11). -/
def execDefine (s : State) : Host.Outcome State Fault Refusal :=
  .next (s.serve .define fun f => State.onProbe f (State.defineProbe f))

/-- ESCALATED with remaining equal to the confirm runs, for an ADAPTIVE style (R12, R17). -/
def Style.escalatedMode (st : Style) : Option AdaptiveMode := st.confirmRuns?.map .escalated

/-- The record of a probe just armed, with the next due it is given (R12). -/
def Probe.arm (p : Probe) (d : Definition) (nextDue : Option Tick) : Probe :=
  { p with
    state := .armed
    generation := p.generation + 1
    confirmed := .unknown
    candidate := none
    runs := 0
    mode := d.style.escalatedMode
    overruns := 0
    overrunLatch := false
    nextDue := nextDue }

/-- ARM carried out on probe i (R12). -/
def State.armProbe (f : Frame) (i : Fin 32) (s : State) : State :=
  let p := s.probe i
  match p.state, p.defn with
  | .defined, some d =>
    let due := if s.scheduler = .running then some (align s.counter d.period d.phase) else none
    (s.setProbe i (p.arm d due)).answer f (.armed (p.generation + 1) due)
  | st, _ => s.answer f (.wrongState st)

/-- ARM (R12). -/
def execArm (s : State) : Host.Outcome State Fault Refusal :=
  .next (s.serve .arm fun f => State.onProbe f (State.armProbe f))

/-- DISARM carried out on probe i: DEFINED again, without a next due or a SCHEDULED entry (R13). -/
def State.disarmProbe (f : Frame) (i : Fin 32) (s : State) : State :=
  let p := s.probe i
  if p.state = .armed then
    ((s.setProbe i { p with state := .defined, nextDue := none }).dropEntries (DueEntry.isScheduledOf i)).answer f
      (.generation p.generation)
  else s.answer f (.wrongState p.state)

/-- DISARM (R13). -/
def execDisarm (s : State) : Host.Outcome State Fault Refusal :=
  .next (s.serve .disarm fun f => State.onProbe f (State.disarmProbe f))

/-- The depth a probe holds of the pool (R94). -/
def Probe.depth (p : Probe) : Nat :=
  match p.defn with
  | some d => d.depth
  | none => 0

/-- DELETE carried out on probe i: the record is FREE with its generation kept and its depth is returned (R14), its entries
are removed, the DELETE is answered, and then a MEASURE parked on the probe is fixed as ABORTED (R15). -/
def State.deleteProbe (f : Frame) (i : Fin 32) (s : State) : State :=
  let p := s.probe i
  if p.state = .free then s.answer f (.wrongState .free)
  else
    let freed := { s.setProbe i (Probe.cleared p.generation) with freeCount := s.freeCount + p.depth }
    ((freed.dropEntries fun e => e.isScheduledOf i || e.isOneShotOf i).answer f (.deleted freed.freeCount)).fixOutcomes
      (ParkedEntry.isMeasureOf i) (.aborted i)

/-- DELETE (R14, R15). -/
def execDelete (s : State) : Host.Outcome State Fault Refusal :=
  .next (s.serve .delete fun f => State.onProbe f (State.deleteProbe f))

/-- The record of a probe given new limits (R17): a new generation and UNKNOWN; an ARMED ADAPTIVE probe is ESCALATED. -/
def Probe.limit (p : Probe) (d : Definition) (window : Option Window) : Probe :=
  { p with
    defn := some { d with style := d.style.withWindow window }
    generation := p.generation + 1
    confirmed := .unknown
    candidate := none
    mode := if p.state = .armed then d.style.escalatedMode else p.mode }

/-- SET_LIMITS carried out on probe i: the state, the style, the fields, then the effects of R17 (R16). -/
def State.limitProbe (f : Frame) (i : Fin 32) (s : State) : State :=
  let p := s.probe i
  match p.state, p.defn with
  | .free, _ | _, none => s.answer f (.wrongState p.state)
  | _, some d =>
    if d.style = .check then s.answer f (.wrongState p.state)
    else
      match checkWindow d.style.need (halfAt f.payload 1) (halfAt f.payload 3) (byteAt f.payload 5)
          (byteAt f.payload 6) with
      | .error field => s.answer f (.badValue field)
      | .ok window =>
        ((s.setProbe i (p.limit d window)).dropEntries (DueEntry.isScheduledOf i)).answer f
          (.generation (p.generation + 1))

/-- SET_LIMITS (R16, R17). -/
def execSetLimits (s : State) : Host.Outcome State Fault Refusal :=
  .next (s.serve .setLimits fun f => State.onProbe f (State.limitProbe f))

/-- READ_PROBE: the record as it stands at the taking (R18). -/
def execReadProbe (s : State) : Host.Outcome State Fault Refusal :=
  .next (s.serve .readProbe fun f => State.onProbe f fun i t => t.answer f (.probe (t.probe i)))

/-- MEASURE carried out on probe i: refused on a FREE probe, beside a parked MEASURE of the probe, or with the parked list
full; otherwise parked with a ONE_SHOT entry linked to it, and no reply at the taking (R55). -/
def State.measureProbe (f : Frame) (i : Fin 32) (s : State) : State :=
  if (s.probe i).state = .free then s.answer f (.wrongState .free)
  else if s.parked.any (ParkedEntry.isMeasureOf i) then s.answer f .inProgress
  else if Config.parkedCapacity ≤ s.parked.length then s.answer f .busy
  else (s.park f.tag (.measure i)).queueOneShot ⟨i, s.nextLink⟩

/-- MEASURE (R55). -/
def execMeasure (s : State) : Host.Outcome State Fault Refusal :=
  .next (s.serve .measure fun f => State.onProbe f (State.measureProbe f))

end Sys2Proof.Machine
end

