-- ==== Sys2Proof/Machine/Processor.lean ====
section
/-! DEFINITION. The commands of the processor, the notice queue, the link and the evaluator: HELLO, ACK, HOLD, LINK_CONFIG,
CHECK_CONFIG, READ_COUNTERS, SOFT_RESET, and PARKED_REPLY_QUEUED (Chapters 5, 7, 8 and 10). -/

namespace Sys2Proof.Machine

/-- The report of HELLO as things stand (R168). -/
def State.report (s : State) : HelloReport :=
  ⟨s.freeCount, s.scheduler, s.engine, s.health, s.holdSet, s.resetCause⟩

/-- HELLO (R168). -/
def execHello (s : State) : Host.Outcome State Fault Refusal :=
  .next (s.serve .hello fun f t => t.answer f (.hello t.report))

/-- One number of an ACK list: the notice that carries it is removed, or the number is not found (R135). The counts are
those of removed and not found. -/
def ackOne (acc : List Notice × Nat × Nat) (n : Half) : List Notice × Nat × Nat :=
  let (notices, removed, notFound) := acc
  if notices.any fun x => x.seq = n then (notices.eraseP fun x => x.seq = n, removed + 1, notFound)
  else (notices, removed, notFound + 1)

/-- ACK carried out, number by number in the order of the list (R135). -/
def State.acknowledge (f : Frame) (s : State) : State :=
  let (notices, removed, notFound) := (halves f.payload).foldl ackOne (s.notices, 0, 0)
  { s with notices := notices }.answer f (.acked removed notFound)

/-- ACK (R135). -/
def execAck (s : State) : Host.Outcome State Fault Refusal :=
  .next (s.serve .ack State.acknowledge)

/-- HOLD carried out: the hold set is replaced, or field 16 is refused (R123). -/
def State.replaceHold (f : Frame) (s : State) : State :=
  match ClassSet.ofByte (byteAt f.payload 0) with
  | some c => { s with holdSet := c }.answer f (.held c s.notices.length)
  | none => s.answer f (.badValue 16)

/-- HOLD (R123). -/
def execHold (s : State) : Host.Outcome State Fault Refusal :=
  .next (s.serve .hold State.replaceHold)

/-- LINK_CONFIG carried out: 8 to 255 replaces the acknowledgement timeout, 0 reads, 1 to 7 is refused; the MUTE flag reported
is the one noted at the receipt (R141). -/
def State.configureLink (f : Frame) (s : State) : State :=
  let v := byteAt f.payload 0
  if 1 ≤ v.toNat ∧ v.toNat ≤ 7 then s.answer f (.badValue 17)
  else
    let timeout := if v = 0 then s.ackTimeout else v
    { s with ackTimeout := timeout }.answer f (.linkConfig timeout f.muteNoted s.rate s.sentCount)

/-- LINK_CONFIG (R141). -/
def execLinkConfig (s : State) : Host.Outcome State Fault Refusal :=
  .next (s.serve .linkConfig State.configureLink)

/-- CHECK_CONFIG carried out: 1 to 255 replaces the check tolerance, 0 reads (R91). -/
def State.configureCheck (f : Frame) (s : State) : State :=
  let v := byteAt f.payload 0
  let tolerance := if v = 0 then s.tolerance else v
  { s with tolerance := tolerance }.answer f (.checkConfig tolerance s.health)

/-- CHECK_CONFIG (R91). -/
def execCheckConfig (s : State) : Host.Outcome State Fault Refusal :=
  .next (s.serve .checkConfig State.configureCheck)

/-- READ_COUNTERS carried out: the five values before any clearing, cleared if asked; another indication violates field 18
(R169). -/
def State.readCounters (f : Frame) (s : State) : State :=
  match indication? (byteAt f.payload 0) with
  | some clear =>
    (if clear then { s with counters := ⟨0, 0, 0, 0⟩, dropped := 0 } else s).answer f (.counters s.counters s.dropped)
  | none => s.answer f (.badValue 18)

/-- READ_COUNTERS (R169). -/
def execReadCounters (s : State) : Host.Outcome State Fault Refusal :=
  .next (s.serve .readCounters State.readCounters)

/-- SOFT_RESET: its reply is queued and the processor is soft reset pending (R170). -/
def execSoftReset (s : State) : Host.Outcome State Fault Refusal :=
  .next (s.serve .softReset fun f t => { t with softResetPending := true }.answer f .softReset)

/-- The waiting parked outcome that was fixed first enters a free slot of the reply queue, and its entry leaves the parked
list (R165). -/
def State.queueParked (s : State) : State :=
  match firstWaiting s.parked with
  | some (e, _, body) =>
    if s.replySlot then (s.unpark e.link).queueReply ⟨e.tag, e.command.code, body⟩ else s
  | none => s

/-- PARKED_REPLY_QUEUED (R165). -/
def execParkedReplyQueued (s : State) : Host.Outcome State Fault Refusal := .next (s.act State.queueParked)

end Sys2Proof.Machine
end

