-- ==== Sys2Proof/Machine/Schedule.lean ====
section
/-! DEFINITION. The scheduler and time commands: RUN, PAUSE, SET_TIME, READ_TIME (Chapter 2). -/

namespace Sys2Proof.Machine

/-- The scheduler comes to RUNNING: every ARMED probe is aligned against the counter value (R27). -/
def State.enterRunning (s : State) : State :=
  { s with scheduler := .running }.mapProbes (Probe.aligned s.counter)

/-- RUN carried out (R27): nothing changes in RUNNING; from DRAINING the awaited PAUSEs are SUPERSEDED after RUN's own
reply. -/
def State.runScheduler (f : Frame) (s : State) : State :=
  match s.scheduler with
  | .stopped => s.enterRunning.answer f (.counter s.counter)
  | .running => s.answer f (.counter s.counter)
  | .draining => (s.enterRunning.answer f (.counter s.counter)).fixOutcomes ParkedEntry.isPause .superseded

/-- RUN (R27). -/
def execRun (s : State) : Host.Outcome State Fault Refusal :=
  .next (s.serve .run State.runScheduler)

/-- The scheduler leaves RUNNING: every SCHEDULED entry is removed and every next due becomes absent (R30). -/
def State.leaveRunning (s : State) (next : SchedulerState) : State :=
  ({ s with scheduler := next }.dropEntries fun e => !e.isOneShot).mapProbes fun p => { p with nextDue := none }

/-- PAUSE carried out (R28, R29). -/
def State.pauseScheduler (f : Frame) (s : State) : State :=
  let full := Config.parkedCapacity ≤ s.parked.length
  match s.scheduler with
  | .stopped => s.answer f (.counter s.counter)
  | .draining => if full then s.answer f (.busyPause s.scheduler) else s.park f.tag .pause
  | .running =>
    if !s.scheduledInFlight then (s.leaveRunning .stopped).answer f (.counter s.counter)
    else if full then s.answer f (.busyPause s.scheduler)
    else (s.leaveRunning .draining).park f.tag .pause

/-- PAUSE (R28, R29). -/
def execPause (s : State) : Host.Outcome State Fault Refusal :=
  .next (s.serve .pause State.pauseScheduler)

/-- SET_TIME carried out: accepted in STOPPED alone; the divider is not touched (R24). -/
def State.loadTime (f : Frame) (s : State) : State :=
  if s.scheduler = .stopped then
    { s with counter := wordAt f.payload 0 }.answer f (.counter (wordAt f.payload 0))
  else s.answer f (.wrongSchedulerState s.scheduler)

/-- SET_TIME (R24). -/
def execSetTime (s : State) : Host.Outcome State Fault Refusal :=
  .next (s.serve .setTime State.loadTime)

/-- READ_TIME: the counter value and the scheduler state (R25). -/
def execReadTime (s : State) : Host.Outcome State Fault Refusal :=
  .next (s.serve .readTime fun f t => t.answer f (.time t.counter t.scheduler))

end Sys2Proof.Machine
end

