-- ==== Sys2Proof/Machine/TimeBase.lean ====
section
/-! DEFINITION. The tick and what is made at it: TICK, DUE_CHECK, NOTICE_TIMEOUT, GAP_ERROR (R22, R23, R35, R137, R151). -/

namespace Sys2Proof.Machine

/-- TICK: the tick counter advances by one, wrapping from 4294967295 to 0 (R23). -/
def execTick (s : State) : Host.Outcome State Fault Refusal := .next (s.act State.advanceTick)

/-- DUE_CHECK: the due check of the last tick, made once (R35). -/
def execDueCheck (s : State) : Host.Outcome State Fault Refusal := .next (s.unlessReset State.runDueCheck)

/-- NOTICE_TIMEOUT: the timeout examination of the last tick, made once (R137). -/
def execNoticeTimeout (s : State) : Host.Outcome State Fault Refusal := .next (s.unlessReset State.runTimeouts)

/-- GAP_ERROR: the receiver's examination of the last tick, made once (R151). -/
def execGapError (s : State) : Host.Outcome State Fault Refusal := .next (s.unlessReset State.runGap)

end Sys2Proof.Machine
end

