-- ==== Sys2Proof/Machine/Dispatch.lean ====
section
/-! DEFINITION. The effect of each command, one arm per row of spec/opcode_table.json. -/

namespace Sys2Proof.Machine

def exec (i : Instr) (s : State) : Host.Outcome State Fault Refusal :=
  match i with
  | .powerReset event => Sys2Proof.Machine.execPowerReset event s
  | .pinReset event => Sys2Proof.Machine.execPinReset event s
  | .tick => Sys2Proof.Machine.execTick s
  | .dueCheck => Sys2Proof.Machine.execDueCheck s
  | .noticeTimeout => Sys2Proof.Machine.execNoticeTimeout s
  | .gapError => Sys2Proof.Machine.execGapError s
  | .receipt => Sys2Proof.Machine.execReceipt s
  | .breakDetected => Sys2Proof.Machine.execBreak s
  | .endOfBreak => Sys2Proof.Machine.execEndOfBreak s
  | .quiesceAsserted => Sys2Proof.Machine.execQuiesceAsserted s
  | .quiesceReleased => Sys2Proof.Machine.execQuiesceReleased s
  | .take => Sys2Proof.Machine.execTake s
  | .gate1End level => Sys2Proof.Machine.execGate1End level s
  | .scheduledCompletion level => Sys2Proof.Machine.execScheduledCompletion level s
  | .oneShotCompletion level => Sys2Proof.Machine.execOneShotCompletion level s
  | .parkedReplyQueued => Sys2Proof.Machine.execParkedReplyQueued s
  | .replyTransmissionStart => Sys2Proof.Machine.execReplyTransmissionStart s
  | .noticeTransmissionStart => Sys2Proof.Machine.execNoticeTransmissionStart s
  | .transmissionCompletion => Sys2Proof.Machine.execTransmissionCompletion s
  | .hello => Sys2Proof.Machine.execHello s
  | .define => Sys2Proof.Machine.execDefine s
  | .arm => Sys2Proof.Machine.execArm s
  | .disarm => Sys2Proof.Machine.execDisarm s
  | .delete => Sys2Proof.Machine.execDelete s
  | .setLimits => Sys2Proof.Machine.execSetLimits s
  | .readProbe => Sys2Proof.Machine.execReadProbe s
  | .measure => Sys2Proof.Machine.execMeasure s
  | .run => Sys2Proof.Machine.execRun s
  | .pause => Sys2Proof.Machine.execPause s
  | .setTime => Sys2Proof.Machine.execSetTime s
  | .readTime => Sys2Proof.Machine.execReadTime s
  | .readHistory => Sys2Proof.Machine.execReadHistory s
  | .ack => Sys2Proof.Machine.execAck s
  | .hold => Sys2Proof.Machine.execHold s
  | .linkConfig => Sys2Proof.Machine.execLinkConfig s
  | .checkConfig => Sys2Proof.Machine.execCheckConfig s
  | .readCounters => Sys2Proof.Machine.execReadCounters s
  | .softReset => Sys2Proof.Machine.execSoftReset s
  | .byteArrival data stopHigh => Sys2Proof.Machine.execByteArrival data stopHigh s

end Sys2Proof.Machine
end

