-- ==== Sys2Proof/Machine/Step.lean ====
section
/-! DEFINITION. One step: the command at the front of the queue, or one crystal period while none waits. -/

namespace Sys2Proof.Machine

/-- One crystal period passes with no command waiting; what the last tick or frame owes is done first (R22, log 6). -/
def State.idle (s : State) : Host.Outcome State Fault Refusal := .next (s.act State.crystalPeriod)

/-- One step: exec on the command at the front of the queue with the queue's rest, or one crystal period on an empty
queue (DESIGN CHOICE, log 6). -/
def step (s : State) : Host.Outcome State Fault Refusal :=
  match s.pending with
  | [] => s.idle
  | c :: rest => exec c { s with pending := rest }

/-- s with the command a table word spells at the front of its queue; s where the word spells none. -/
def State.withFetchWord (s : State) (nbits w : Nat) : State :=
  match decodeTableWord nbits w with
  | some c => { s with pending := c :: s.pending }
  | none => s

end Sys2Proof.Machine
end

