-- ==== Sys2Proof/WellFormed.lean ====
section
/-! DEFINITION. Well-formedness: of commands, of the command frames they take, and of the definitions a probe holds. -/

namespace Sys2Proof

/-- A command is well-formed whatever its operands: the operand types hold exactly the values the outside world can supply (a
byte, a level of a line, a level of a channel). The fields of host commands are in frames. -/
def Instr.wellFormed (_ : Instr) : Bool := true

namespace Machine

/-- A frame of the inbox is well-formed: its KIND is a command code and its LEN that command's (R152, Table 10-5). -/
def Frame.wellFormed (f : Frame) : Bool := (judgeFrame f.kind f.payload.length).isSome

/-- A window holds limits in order, a hysteresis that fits between them and a settle of 1 to 8 (R9). -/
def Window.wellFormed (w : Window) : Bool :=
  w.low.toNat ≤ w.high.toNat && w.hysteresis.toNat ≤ w.high.toNat - w.low.toNat && 1 ≤ w.settle && w.settle ≤ 8

/-- Style CHECK stands with channel 16 and channel 16 with style CHECK (R7). -/
def Definition.channelAgrees (d : Definition) : Bool := (d.style == .check) == (d.channel.val == 16)

/-- The period is 1 or more and the phase less than it (R8). -/
def Definition.phaseFits (d : Definition) : Bool := 1 ≤ d.period.toNat && d.phase.toNat < d.period.toNat

/-- The window, if present, is well-formed (R9). -/
def Definition.windowFits (d : Definition) : Bool := d.style.window?.all Window.wellFormed

/-- The confirm runs, if present, are 1 to 16 (R10). -/
def Definition.confirmFits (d : Definition) : Bool := d.style.confirmRuns?.all fun n => 1 ≤ n && n ≤ 16

/-- The depth is at most 64 and the watermark at most the depth (R10). -/
def Definition.ringFits (d : Definition) : Bool := d.depth ≤ 64 && d.watermark ≤ d.depth

/-- A definition within the ranges of Table 1-1. -/
def Definition.wellFormed (d : Definition) : Bool :=
  d.channelAgrees && d.phaseFits && d.windowFits && d.confirmFits && d.ringFits

end Machine

end Sys2Proof
end

