-- ==== Sys2Proof/Safety.lean ====
section
/-! DEFINITION. The terms in which statements are made: the conditions under which a command is taken, and what every state
that a run reaches satisfies. -/

namespace Sys2Proof

/-- The row of the opcode table that takes a host command. -/
def HostCommand.instr : HostCommand → Instr
  | .hello => .hello
  | .define => .define
  | .arm => .arm
  | .disarm => .disarm
  | .delete => .delete
  | .setLimits => .setLimits
  | .readProbe => .readProbe
  | .measure => .measure
  | .run => .run
  | .pause => .pause
  | .setTime => .setTime
  | .readTime => .readTime
  | .readHistory => .readHistory
  | .ack => .ack
  | .hold => .hold
  | .linkConfig => .linkConfig
  | .checkConfig => .checkConfig
  | .readCounters => .readCounters
  | .softReset => .softReset

namespace Machine

/-! ### Conditions of a taking -/

/-- The part is not held in reset, and no work of a tick or of a good frame is owed. -/
def State.Quiet (s : State) : Prop := (s.inReset, s.owed) = (false, Owed.nothing)

/-- The oldest frame of the inbox is `f`, carries command `c`, and may be taken by R161: a reply slot is free, no parked
entry with a fixed outcome waits, no soft reset is pending. -/
structure State.MayTake (s : State) (c : HostCommand) (f : Frame) (rest : List Frame) : Prop where
  quiet : s.Quiet
  front : s.inbox = f :: rest
  kind : f.kind = c.code
  slot : s.replies.length < 8
  noneWaiting : ∀ e ∈ s.parked, e.outcome = .awaited
  notPending : s.softResetPending = false

/-- The frame may be taken and no parked entry carries its tag (R162). -/
structure State.Taking (s : State) (c : HostCommand) (f : Frame) (rest : List Frame) : Prop
    extends s.MayTake c f rest where
  freshTag : ∀ e ∈ s.parked, e.tag ≠ f.tag

/-- The first field of the frame is the id of probe i. -/
def Frame.names (f : Frame) (i : Fin 32) : Prop := byteAt f.payload 0 = BitVec.ofNat 8 i.val

/-- A run of probe i is queued, or one of its current generation is in flight (R35). -/
def State.Outstanding (s : State) (i : Fin 32) : Prop :=
  (∃ e, DueEntry.scheduled e ∈ s.dueQueue ∧ e.probe = i) ∨
    ∃ e op channel, s.engine = .busy ⟨.scheduled e, op, channel⟩ ∧ e.probe = i ∧ e.generation = (s.probe i).generation

/-- Probe i is ARMED under definition d and comes due at the counter value (R35). -/
def State.DueNow (s : State) (i : Fin 32) (d : Definition) : Prop :=
  (s.probe i).state = .armed ∧ (s.probe i).defn = some d ∧ (s.probe i).nextDue = some s.counter

/-! ### What commands carry -/

/-- The condition of field k of a window, one of 6, 7 and 8, where the style needs or bars a window (R9, R16): a high of 0xFFFF
marks the window absent. -/
def WindowFieldOk (needs bars : Prop) (high low : Half) (hysteresis settle : Byte) : Nat → Prop
  | 6 => (needs → high ≠ 0xFFFF) ∧ (bars → high = 0xFFFF) ∧
      (high ≠ 0xFFFF → high.toNat ≤ 4095 ∧ low.toNat ≤ 4095 ∧ low.toNat ≤ high.toNat)
  | 7 => high ≠ 0xFFFF → hysteresis.toNat ≤ high.toNat - low.toNat
  | 8 => high ≠ 0xFFFF → 1 ≤ settle.toNat ∧ settle.toNat ≤ 8
  | _ => True

/-- The window holds the values carried, or is absent as marked (R9, R175). -/
def CarriesWindow (window : Option Window) (high low : Half) (hysteresis settle : Byte) : Prop :=
  (high = 0xFFFF ∧ window = none) ∨
    (high ≠ 0xFFFF ∧ ∃ w, window = some w ∧ w.high.toNat = high.toNat ∧ w.low.toNat = low.toNat ∧
      w.hysteresis = hysteresis ∧ w.settle = settle.toNat)

/-! ### What events come to -/

/-- The links of the parked entries are distinct. -/
def State.LinksDistinct (s : State) : Prop := (s.parked.map ParkedEntry.link).Nodup

/-- The outcome of every awaited PAUSE is fixed (R32, R164): in parking order each reply takes a free slot while one remains,
none while an earlier outcome waits; the others wait in the list, numbered in that order (log 8). -/
def State.answerPauses (s : State) (body : ReplyBody) : State :=
  let pauses := s.parked.filter fun p => p.isPause && p.awaited
  let slots := if s.parked.all ParkedEntry.awaited then 8 - s.replies.length else 0
  let answered := pauses.take slots
  let waiting := pauses.drop slots
  { s with
    replies := s.replies ++ answered.map fun p => ⟨p.tag, 0x21, body⟩
    parked := (s.parked.filter fun p => p ∉ answered).map fun p =>
      if p ∈ waiting then { p with outcome := .fixed (s.nextFix + waiting.idxOf p) body } else p
    nextFix := s.nextFix + waiting.length }

/-- The record of probe i after a counted run that left it `q`: the latch is clear, and with a depth of 1 or more the history
record is appended, the oldest pushed out of a full ring and counted, and the watermark-reached flag set when the fill
comes to the watermark (R38, R98 to R101). -/
def Probe.withRecord (q : Probe) (d : Definition) (record : HistoryRecord) : Probe :=
  let room := q.ring.length < d.depth
  { q with
    overrunLatch := false
    ring := if d.depth = 0 then q.ring else (if room then q.ring else q.ring.drop 1) ++ [record]
    overwritten := if d.depth = 0 ∨ room then q.overwritten
      else if q.overwritten = 65535 then 65535 else q.overwritten + 1
    watermarkReached := q.watermarkReached || (room && q.ring.length + 1 == d.watermark) }

/-- What a counted run of probe i comes to that leaves its record `q` and finds these notices (R53): the notices are submitted
in order and then the WATERMARK notice (R101), the engine is IDLE, and in DRAINING the drain completes (R31). -/
def State.runCounted (s : State) (i : Fin 32) (d : Definition) (q : Probe) (record : HistoryRecord)
    (found : List NoticeContent) : State :=
  let watermark := if q.ring.length < d.depth ∧ q.ring.length + 1 = d.watermark ∧ q.watermarkReached = false ∧
      d.notify.watermark = true then [.watermark i q.generation d.watermark d.depth] else []
  let t := (found ++ watermark).foldl State.submit
    { s with engine := .idle, probes := s.probes.set i (q.withRecord d record) }
  if s.scheduler = .draining then { t with scheduler := .stopped }.answerPauses (.counter s.counter) else t

/-! ### What every reachable state satisfies -/

/-- A definition is held exactly outside FREE (R2), and the free count plus the depths of the defined probes is the pool
(R94). -/
def State.PoolBalanced (s : State) : Prop :=
  (∀ i, (s.probe i).state = .free ↔ (s.probe i).defn = none) ∧
    s.freeCount + ((List.finRange 32).map fun i => (s.probe i).depth).sum = 512

/-- Every holding place keeps to its capacity (R111, R132, R160, R163, R166), and every ring to its depth (R96). -/
def State.WithinCapacity (s : State) : Prop :=
  s.inbox.length ≤ 4 ∧ s.parked.length ≤ 4 ∧ s.replies.length ≤ 8 ∧ s.notices.length ≤ 24 ∧ s.sentCount ≤ 4 ∧
    ∀ i, (s.probe i).ring.length ≤ (s.probe i).depth

/-- The entries of the due queue stand in the order of R44 and R45: `a` may stand ahead of `b`. -/
def State.MayPrecede (s : State) : DueEntry → DueEntry → Prop
  | .oneShot _, _ => True
  | .scheduled _, .oneShot _ => False
  | .scheduled a, .scheduled b =>
    s.classOf a.probe < s.classOf b.probe ∨
      (s.classOf a.probe = s.classOf b.probe ∧
        (a.arrival < b.arrival ∨ (a.arrival = b.arrival ∧ a.probe.val < b.probe.val)))

/-- The law of R26 with what keeps it: a probe has a next due exactly while it is ARMED and the scheduler RUNNING; a
queued SCHEDULED entry belongs to an ARMED probe of its generation while the scheduler is RUNNING, one at most for a
probe; a run of the current generation in flight has no queued entry beside it; DRAINING waits for a scheduled
operation; the entries stand in the order of R44 and R45. -/
structure State.ScheduleLawful (s : State) : Prop where
  defined : ∀ i, (s.probe i).state = .free ↔ (s.probe i).defn = none
  nextDue : ∀ i, (s.probe i).nextDue.isSome ↔ (s.probe i).state = .armed ∧ s.scheduler = .running
  entries : ∀ e, DueEntry.scheduled e ∈ s.dueQueue →
    s.scheduler = .running ∧ (s.probe e.probe).state = .armed ∧ e.generation = (s.probe e.probe).generation
  single : ∀ i, s.dueQueue.countP (DueEntry.isScheduledOf i) ≤ 1
  inFlight : ∀ e op channel, s.engine = .busy ⟨.scheduled e, op, channel⟩ →
    e.generation = (s.probe e.probe).generation → ∀ x ∈ s.dueQueue, ¬ x.isScheduledOf e.probe
  draining : s.scheduler = .draining → s.scheduledInFlight
  ordered : s.dueQueue.Pairwise s.MayPrecede

/-- The links are the names of the parked entries: each is below the next link and carried once; a ONE_SHOT entry of the
due queue is linked to an awaited MEASURE of its probe, the queue holds one at most for a probe, and a one-shot in flight
is not queued too (R43, R55). -/
structure State.LinksLawful (s : State) : Prop where
  below : ∀ p ∈ s.parked, p.link < s.nextLink
  once : (s.parked.map ParkedEntry.link).Nodup
  onePerProbe : ∀ i, s.parked.countP (ParkedEntry.isMeasureOf i) ≤ 1
  tags : (s.parked.map ParkedEntry.tag).Nodup
  entries : ∀ e, DueEntry.oneShot e ∈ s.dueQueue →
    ∃ p ∈ s.parked, p.link = e.link ∧ p.command = .measure e.probe ∧ p.outcome = .awaited
  single : ∀ i, s.dueQueue.countP (DueEntry.isOneShotOf i) ≤ 1
  inFlight : ∀ e op channel, s.engine = .busy ⟨.oneShot e, op, channel⟩ →
    e.link < s.nextLink ∧ (∀ p ∈ s.parked, p.link = e.link → p.command = .measure e.probe) ∧
      ∀ x, DueEntry.oneShot x ∈ s.dueQueue → x.link ≠ e.link

/-- No two notices carry one sequence number (R114), and no two QUEUED notices of the classes CROSSING, WATERMARK and
OVERRUN share class, probe id and generation (R111, R122). -/
def State.NoticesLawful (s : State) : Prop :=
  s.notices.length ≤ 24 ∧ (s.notices.map Notice.seq).Nodup ∧
    s.notices.Pairwise fun a b => a.isQueued → b.isQueued → a.content.key? = b.content.key? → a.content.key? = none

/-- Retries do not exceed 4, and a notice of retries 4 is QUEUED while the link is MUTE (R139). -/
def State.RetriesLawful (s : State) : Prop :=
  ∀ n ∈ s.notices, n.retries ≤ 4 ∧ (n.retries = 4 → s.mute = true ∧ n.isQueued = true)

/-- Of every probe: its definition is within the ranges of Table 1-1; the adaptive mode is present exactly for ADAPTIVE and
its remaining count is 1 to the confirm runs (R77); a candidate differs from a known confirmed verdict, and its count is 1
to settle − 1 (R72). -/
def Probe.VerdictLawful (p : Probe) : Prop :=
  (∀ d, p.defn = some d → d.wellFormed) ∧
    (p.mode.isSome ↔ ∃ d, p.defn = some d ∧ d.style.confirmRuns?.isSome) ∧
    (∀ n, p.mode = some (.escalated n) → ∃ d k, p.defn = some d ∧ d.style.confirmRuns? = some k ∧ 1 ≤ n ∧ n ≤ k) ∧
    ∀ c, p.candidate = some c → ∃ d w, p.defn = some d ∧ d.style.window? = some w ∧ p.confirmed ≠ .unknown ∧
      p.confirmed ≠ c.verdict.toVerdict ∧ 1 ≤ c.count ∧ c.count < w.settle

/-- Every probe's verdict fields are lawful. -/
def State.VerdictsLawful (s : State) : Prop := ∀ i, (s.probe i).VerdictLawful

end Machine

end Sys2Proof
end

