-- ==== Sys2Proof/Certificates/Slice0/Obligations.lean ====
section
/-! DEFINITION. The statements for the provers. A command's result is written as the whole next state: a field that the
record update does not name is unchanged. -/

open Sys2Proof Sys2Proof.Machine

/-! ### The step -/

/-- The command at the front of the queue is run by exec with the queue's rest (the model's queue, log 18). -/
def Obligations.StepRunsTheFrontCommand : Prop :=
  ∀ (c : Instr) (s : State) (rest : List Instr), s.pending = c :: rest → step s = exec c { s with pending := rest }

/-- R22: 256 crystal periods with no command waiting make one tick, and fewer make none. The model's own: that a step with no
command is one crystal period (log 6), made after the work a tick or a frame still owes and owing the tick's examinations
(log 4, log 5), that elapsed counts the ticks (log 8), and that none passes while the part is held in reset (log 11). -/
def Obligations.TickEvery256CrystalPeriods : Prop :=
  (∀ s : State, s.Quiet → s.pending = [] → s.divider = 0 →
    (∀ k, k ≤ 255 → Sys2Proof.core.run k s = .next { s with divider := BitVec.ofNat 8 k }) ∧
    Sys2Proof.core.run 256 s = .next
      { s with counter := s.counter + 1, elapsed := s.elapsed + 1, owed := ⟨true, true, true, none⟩ }) ∧
  ∀ s : State, s.pending = [] →
    (s.inReset = true → step s = .next s) ∧
    (s.inReset = false → s.settled.divider.toNat < 255 →
      step s = .next { s.settled with divider := s.settled.divider + 1 }) ∧
    (s.inReset = false → s.settled.divider.toNat = 255 → step s = .next { s.settled with
      counter := s.settled.counter + 1
      divider := 0
      elapsed := s.settled.elapsed + 1
      owed := ⟨true, true, true, none⟩ })

/-- No command stops the part, and none touches the model's queue. -/
def Obligations.EveryCommandAnswersAndKeepsTheQueue : Prop :=
  ∀ (c : Instr) (s : State), ∃ t, exec c s = .next t ∧ t.pending = s.pending

/-- What a tick and a good frame owe is done before any other command has its effect (log 4, log 5), once: it is what RECEIPT,
DUE_CHECK, NOTICE_TIMEOUT and GAP_ERROR leave in turn (this order is the model's, log 4). Of a part held in reset see
HardResetsLeaveTheResetValues. -/
def Obligations.OwedWorkComesFirst : Prop :=
  ∀ (c : Instr) (s : State), s.inReset = false → c ≠ .dueCheck → c ≠ .noticeTimeout → c ≠ .gapError → c ≠ .receipt →
    exec c s = exec c s.settled ∧ s.settled.Quiet ∧ (s.Quiet → s.settled = s) ∧
    ∃ received checked examined : State, exec .receipt s = .next received ∧ exec .dueCheck received = .next checked ∧
      exec .noticeTimeout checked = .next examined ∧ exec .gapError examined = .next s.settled

/-! ### Resets -/

/-- Tables 1-1, 2-2, 3-2, 5-3, 6-3, 7-3, 8-1, 9-5 and 10-2 after a power and a pin reset: both leave every item at its
reset value, with the straps and lines sampled, and STARTUP alone in the notice queue. R21, R60, R144: already at the
beginning the in-flight record, the due queue and the parked list are emptied, the transmitter is stopped, MUTE is clear
and the timeout 32; that every other item but those sampled or named at the end takes its reset value there too, with no
notice queued and a BUSY engine IDLE, is the model's choice (log 11). The zeros of elapsed, nextLink and nextFix (log 8),
the 0 of the count of bytes expected in HUNT (log 21) and the queue of commands, left alone (log 18), are the model's.
R125, R156: while a power reset lasts or RESET# is low ALERT# is released and TXD high, until both have ended where they
overlap. That nothing else happens in that interval, and that each end of an overlap sets every item and names its own
cause, is the model's choice (log 11). -/
def Obligations.HardResetsLeaveTheResetValues : Prop :=
  ∀ (pins : ResetPins) (s : State),
    let after : ResetCause → State := fun cause =>
      { counter := 0, divider := 0, elapsed := 0, scheduler := .stopped
        probes := Vector.replicate 32
          { state := .free, generation := 0, defn := none, nextDue := none, overruns := 0, overrunLatch := false
            confirmed := .unknown, candidate := none, mode := none, lastValue := none, runs := 0, ring := []
            overwritten := 0, watermarkReached := false }
        freeCount := 512, dueQueue := [], engine := if pins.quiesce then .quiesced else .idle
        health := .good, tolerance := 20
        notices := [⟨0, .condition (.startup cause pins.quiesce), 0, 0, .queued, 0⟩]
        nextSeq := 1, gapAcc := 0, holdSet := ⟨false, false, false, false⟩, dropped := 0
        receiver := ⟨.hunt, [], 0, 0⟩, transmitter := .free, mute := false, ackTimeout := 32
        rate := match pins.rate1, pins.rate0 with
          | false, false => .r9600
          | false, true => .r38400
          | true, false => .r115200
          | true, true => .r460800
        counters := ⟨0, 0, 0, 0⟩, rxdHigh := pins.rxdHigh, inbox := [], parked := [], replies := []
        softResetPending := false, resetCause := cause, powerReset := s.powerReset, pinReset := s.pinReset, nextLink := 0, nextFix := 0
        owed := ⟨false, false, false, none⟩, pending := s.pending }
    let held : State := { after s.resetCause with
      engine := if s.engine = .quiesced then .quiesced else .idle
      notices := [], nextSeq := 0, rate := s.rate, rxdHigh := s.rxdHigh }
    exec (.powerReset (.ends pins)) s = .next { after .power with powerReset := false } ∧
    exec (.pinReset (.ends pins)) s = .next { after .pin with pinReset := false } ∧
    exec (.powerReset .begins) s = .next { held with powerReset := true } ∧
    exec (.pinReset .begins) s = .next { held with pinReset := true } ∧
    (s.inReset = true ↔ s.powerReset = true ∨ s.pinReset = true) ∧
    (s.powerReset = true ∨ s.pinReset = true → s.alertAsserted = false ∧ (∀ k, s.txdHigh k = true) ∧
      ∀ c : Instr, (∀ e, c ≠ .powerReset e) → (∀ e, c ≠ .pinReset e) → exec c s = .next s)

/-- R171: the completion of the SOFT_RESET reply leaves what a pin reset leaves, with the rate kept, the QUIESCE line and
RXD as they stand, and cause SOFT. -/
def Obligations.SoftResetTakesEffectAtItsReply : Prop :=
  ∀ (s t : State) (tag code : Byte) (r1 r0 : Bool), s.Quiet →
    s.transmitter = .sending (.reply ⟨tag, code, .softReset⟩) →
    exec (.pinReset (.ends ⟨r1, r0, s.engine = .quiesced, s.rxdHigh⟩)) s = .next t →
    exec .transmissionCompletion s = .next
      { t with
        rate := s.rate
        resetCause := .soft
        notices := [⟨0, .condition (.startup .soft (s.engine = .quiesced)), 0, 0, .queued, 0⟩] }

/-- State.reset is what a power reset leaves where RESET# is high, with the other pins at the model's levels, straps low,
QUIESCE released and RXD high (the model's choice, log 1), and it meets every invariant stated below. -/
def Obligations.ResetMeetsTheInvariants : Prop :=
  (∀ s : State, s.pending = [] → s.pinReset = false → exec (.powerReset (.ends ⟨false, false, false, true⟩)) s = .next State.reset) ∧
    State.reset.PoolBalanced ∧ State.reset.WithinCapacity ∧ State.reset.ScheduleLawful ∧ State.reset.LinksLawful ∧
    State.reset.NoticesLawful ∧ State.reset.RetriesLawful ∧ State.reset.VerdictsLawful

/-! ### The tick (Chapter 2) -/

/-- R23: the tick advances the counter by one modulo 2^32 and changes nothing else the spec names at once; the examinations of
the tick are then owed (log 4). The model's own: TICK stands for the rest of the divider's run and leaves it at 0 (log 6), and
elapsed, which counts ticks without wrapping, rises (log 8). -/
def Obligations.TickAdvancesTheCounter : Prop :=
  ∀ s : State, s.Quiet → exec .tick s = .next
    { s with
      counter := BitVec.ofNat 32 ((s.counter.toNat + 1) % 2 ^ 32)
      divider := 0
      elapsed := s.elapsed + 1
      owed := ⟨true, true, true, none⟩ }

/-- R34 to R37: the due check, over all probes, in RUNNING alone and once for a tick (log 4). A probe that is due has its next
due advanced by its period modulo 2^32; with a run outstanding it counts an overrun, saturating, and with OVERRUN notified
and the latch clear sets the latch and submits an OVERRUN notice of its generation and of the count after the addition, in
ascending order of probe id; otherwise an entry of its generation and of this tick is queued, in order. No other probe
changes, no entry is lost and none is queued for a probe that is not due, and nothing else changes. The tick of an entry, by
which entries are ordered, is the model's elapsed (log 8). -/
def Obligations.DueCheckServesEveryDueProbe : Prop :=
  ∀ s : State, s.inReset = false →
    (s.owed.dueCheck = false → exec .dueCheck s = .next s) ∧
    (s.owed.dueCheck = true → s.scheduler ≠ .running →
      exec .dueCheck s = .next { s with owed := { s.owed with dueCheck := false } }) ∧
    (s.owed.dueCheck = true → s.scheduler = .running →
      let count : Fin 32 → Half := fun i =>
        if (s.probe i).overruns = 65535 then 65535 else (s.probe i).overruns + 1
      ∃ (t : State) (reporting : List (Fin 32)), exec .dueCheck s = .next t ∧
      reporting.Pairwise (· < ·) ∧
      (∀ i, i ∈ reporting ↔ ∃ d, s.DueNow i d ∧ s.Outstanding i ∧ d.notify.overrun = true ∧
        (s.probe i).overrunLatch = false) ∧
      t = { reporting.foldl (fun u i => u.submit (.overrun i (s.probe i).generation (count i))) s with
        probes := t.probes, dueQueue := t.dueQueue, owed := { s.owed with dueCheck := false } } ∧
      (∀ i d, s.DueNow i d → s.Outstanding i →
        t.probe i = { s.probe i with
          nextDue := some (s.counter + d.period.setWidth 32)
          overruns := count i
          overrunLatch := (s.probe i).overrunLatch || d.notify.overrun }) ∧
      (∀ i d, s.DueNow i d → ¬ s.Outstanding i →
        t.probe i = { s.probe i with nextDue := some (s.counter + d.period.setWidth 32) } ∧
        .scheduled ⟨i, (s.probe i).generation, s.counter, false, s.elapsed⟩ ∈ t.dueQueue) ∧
      (∀ i, (∀ d, ¬ s.DueNow i d) → t.probe i = s.probe i) ∧
      s.dueQueue.Sublist t.dueQueue ∧
      (s.dueQueue.Pairwise s.MayPrecede → t.dueQueue.Pairwise t.MayPrecede) ∧
      ∀ x ∈ t.dueQueue, x ∈ s.dueQueue ∨ ∃ i d, s.DueNow i d ∧ ¬ s.Outstanding i ∧
        x = .scheduled ⟨i, (s.probe i).generation, s.counter, false, s.elapsed⟩)

/-- R33: the next due by alignment against c leaves remainder phase when divided by the period, and no value after c and
before it does, where the values after c are c + 1, c + 2 and so on, with 4294967295 followed by 0. -/
def Obligations.AlignmentIsTheFirstValueAfter : Prop :=
  ∀ (c : Tick) (period phase : Half), phase.toNat < period.toNat →
    let due := align c period phase
    due ≠ c ∧ due.toNat % period.toNat = phase.toNat ∧
      ∀ k : Nat, 1 ≤ k → k < (due - c).toNat → (c + BitVec.ofNat 32 k).toNat % period.toNat ≠ phase.toNat

/-- R45: an entry placed in an ordered due queue leaves it ordered, by class, then by the tick, then by probe id, behind
every ONE_SHOT entry; the entries already there keep their order. -/
def Obligations.DueQueueStaysOrdered : Prop :=
  ∀ (s : State) (i : Fin 32) (followUp : Bool), s.dueQueue.Pairwise s.MayPrecede →
    (∀ e, .scheduled e ∈ s.dueQueue → e.probe ≠ i) →
    (s.queueScheduled i followUp).dueQueue.Pairwise s.MayPrecede ∧
    s.dueQueue.Sublist (s.queueScheduled i followUp).dueQueue

/-! ### Notices (Chapters 7 and 8) -/

/-- R114, R116 to R121: the four outcomes of a submission. A notice created is numbered with the first value, counting upward
from the next sequence number modulo 65536, that no notice then in the queue carries; an evicted notice is gone by then. -/
def Obligations.SubmissionOutcomes : Prop :=
  ∀ (s : State) (c : NoticeContent),
    let numbers : List Notice → Half → Prop := fun notices seq => (∀ n ∈ notices, n.seq ≠ seq) ∧
      ∃ k : Nat, seq = s.nextSeq + BitVec.ofNat 16 k ∧
        ∀ j, j < k → ∃ n ∈ notices, n.seq = s.nextSeq + BitVec.ofNat 16 j
    -- a QUEUED notice of its key takes the submission in, at any fill
    (∀ before n after, s.notices = before ++ n :: after → n.delivery = .queued → c.key? ≠ none →
      n.content.key? = c.key? → (∀ m ∈ before, m.delivery = .queued → m.content.key? ≠ c.key?) →
      s.submit c = { s with notices := before ++ { n with content := n.content.absorb c, stamp := s.counter } :: after }) ∧
    -- a CROSSING keeps its previous verdict and counts the merged crossings
    (∀ i gen previous new value suspect merged previous' new' value' suspect',
      NoticeContent.absorb (.crossing i gen previous new value suspect merged)
          (.crossing i gen previous' new' value' suspect' 1) =
        .crossing i gen previous new' value' (suspect || suspect') (if merged = 255 then 255 else merged + 1)) ∧
    ((∀ n ∈ s.notices, n.delivery = .queued → c.key? = none ∨ n.content.key? ≠ c.key?) →
      -- with room, a notice is created with the accumulated gap
      (s.notices.length < 24 → ∃ seq,
        s.submit c = { s with
          notices := s.notices ++ [⟨seq, c, s.counter, s.gapAcc, .queued, 0⟩], nextSeq := seq + 1, gapAcc := 0 } ∧
        numbers s.notices seq) ∧
      -- in a full queue a CONDITION evicts the QUEUED notice of another class created last
      (∀ reason before n after, s.notices.length = 24 → c = .condition reason → s.notices = before ++ n :: after →
        n.delivery = .queued → n.content.cls ≠ .condition →
        (∀ m ∈ after, m.delivery = .queued → m.content.cls = .condition) → ∃ seq,
        numbers (before ++ after) seq ∧ s.submit c = { s with
          notices := (before ++ after) ++
            [⟨seq, c, s.counter, if s.gapAcc = 255 then 255 else s.gapAcc + 1, .queued, 0⟩]
          nextSeq := seq + 1
          gapAcc := 0
          dropped := if s.dropped = 4294967295 then 4294967295 else s.dropped + 1 }) ∧
      -- and anything else is dropped and counted
      (24 ≤ s.notices.length →
        (c.cls ≠ .condition ∨ ∀ m ∈ s.notices, m.delivery = .queued → m.content.cls = .condition) →
        s.submit c = { s with
          gapAcc := if s.gapAcc = 255 then 255 else s.gapAcc + 1
          dropped := if s.dropped = 4294967295 then 4294967295 else s.dropped + 1 }))

/-- R122, R137, R139: at a tick every SENT notice whose age modulo 2^32 has reached the timeout returns to QUEUED with its
retries raised, a notice brought to retries 4 sets MUTE, and the sets of QUEUED notices of one key are then merged; with
no notice that old nothing changes. Once for a tick (log 4). The age is the difference modulo 2^32 whatever SET_TIME
loaded; that the first paragraph of R137 decides where its last one says otherwise is the model's choice (log 20). -/
def Obligations.TimeoutsReturnOldNotices : Prop :=
  ∀ s : State, s.inReset = false →
    let old : Notice → Bool := fun n => match n.delivery with
      | .sent stamp => s.ackTimeout.toNat ≤ (s.counter - stamp).toNat
      | .queued => false
    let returned := s.notices.map fun n => if old n then { n with delivery := .queued, retries := n.retries + 1 } else n
    let done : State := { s with owed := { s.owed with timeouts := false } }
    (s.owed.timeouts = false → exec .noticeTimeout s = .next s) ∧
    (s.owed.timeouts = true → (∀ n ∈ s.notices, old n = false) → exec .noticeTimeout s = .next done) ∧
    (s.owed.timeouts = true → (∃ n ∈ s.notices, old n = true) → exec .noticeTimeout s = .next { done with
      notices := mergeQueued returned
      mute := s.mute || s.notices.any fun n => old n && n.retries + 1 == 4 })

/-- R122: merging keeps the notices in order of creation, leaves at most one QUEUED notice of a key, removes no SENT and no
CONDITION notice, and keeps of each key the earliest QUEUED notice, with its sequence number and retries. The kept notice has
the stamp and the findings of the latest member of its set and the sum of the gaps; a CROSSING keeps its previous verdict, is
suspect if any member is, and sums the merged counts; the sums stop at 255. Without two QUEUED notices of one key nothing
changes. -/
def Obligations.MergingKeepsTheEarliestOfEachKey : Prop :=
  ∀ notices : List Notice,
    ((mergeQueued notices).map fun n => (n.seq, n.retries, n.delivery, n.content.key?)).Sublist
      (notices.map fun n => (n.seq, n.retries, n.delivery, n.content.key?)) ∧
    ((mergeQueued notices).Pairwise fun a b => a.delivery = .queued → b.delivery = .queued →
      a.content.key? = b.content.key? → a.content.key? = none) ∧
    ((notices.Pairwise fun a b => a.delivery = .queued → b.delivery = .queued →
      a.content.key? = b.content.key? → a.content.key? = none) → mergeQueued notices = notices) ∧
    (∀ n ∈ notices, n.delivery ≠ .queued ∨ n.content.key? = none → n ∈ mergeQueued notices) ∧
    ∀ before n after, notices = before ++ n :: after → n.delivery = .queued → n.content.key? ≠ none →
      (∀ m ∈ before, m.delivery = .queued → m.content.key? ≠ n.content.key?) →
      let later := after.filter fun m => m.delivery = .queued ∧ m.content.key? = n.content.key?
      let members := n :: later
      let latest := later.getLast?.getD n
      let suspect : Notice → Bool := fun m => match m.content with | .crossing _ _ _ _ _ suspect _ => suspect | _ => false
      let merged : Notice → Nat := fun m => match m.content with | .crossing _ _ _ _ _ _ count => count.toNat | _ => 0
      { n with
        stamp := latest.stamp
        gap := BitVec.ofNat 8 (min 255 (members.map fun m => m.gap.toNat).sum)
        content := match n.content, latest.content with
          | .crossing i gen previous _ _ _ _, .crossing _ _ _ new value _ _ =>
            .crossing i gen previous new value (members.any suspect) (BitVec.ofNat 8 (min 255 (members.map merged).sum))
          | _, content => content } ∈ mergeQueued notices

/-- R131 to R133: with MUTE clear, fewer than four SENT notices, the transmitter FREE and no reply waiting, the
earliest-created QUEUED notice of an unheld class becomes SENT with the counter value as its sent stamp, and its frame
is in transmission; without an eligible notice or without one of the conditions no start is made. -/
def Obligations.NoticeStartSendsTheEligibleNotice : Prop :=
  ∀ s : State, s.Quiet →
    (∀ before n after, s.notices = before ++ n :: after → n.delivery = .queued → s.holdSet.has n.content.cls = false →
      (∀ m ∈ before, m.delivery = .queued → s.holdSet.has m.content.cls = true) →
      s.mute = false → s.sentCount < 4 → s.transmitter = .free → s.replies = [] →
      exec .noticeTransmissionStart s = .next { s with
        notices := before ++ { n with delivery := .sent s.counter } :: after
        transmitter := .sending (.notice n) }) ∧
    ((∀ n ∈ s.notices, n.delivery = .queued → s.holdSet.has n.content.cls = true) ∨ s.mute = true ∨
        4 ≤ s.sentCount ∨ s.transmitter ≠ .free ∨ s.replies ≠ [] →
      exec .noticeTransmissionStart s = .next s)

/-! ### The link (Chapter 9) -/

/-- R147 to R150: a frame the host sends byte by byte (as commands in the model's queue, log 18), with any kind, tag and
payload of up to 56 bytes, reaches a hunting receiver whole: after its last byte its receipt is owed (log 5) with exactly
that kind, tag and payload, and nothing else has changed; the 0 of the count of bytes expected in HUNT is the model's (log
21). The check sequence continued over itself leaves 0. -/
def Obligations.ReceiverDeliversEverySoundFrame : Prop :=
  (∀ (s : State) (kind tag : Byte) (payload : List Byte), s.Quiet → payload.length ≤ 56 →
    s.receiver.phase = .hunt → s.transmitter ≠ .held →
    let bytes := frameBytes kind tag payload
    s.pending = bytes.map (fun b => .byteArrival (Character.ofByte b).data true) →
    Sys2Proof.core.run bytes.length s = .next { s with
      pending := []
      rxdHigh := true
      receiver := ⟨.hunt, [], 0, 0⟩
      owed := ⟨false, false, false, some (kind, tag, payload)⟩ }) ∧
  ∀ bytes : List Byte, fcs (bytes ++ bytes16 (fcs bytes)) = 0

/-- R145, R149, R150: the arrival of a byte, in the eight data bits of a character with a high stop bit, by the receiver's
state. In HUNT a SYNC begins a frame and any other byte is discarded; in HEADER the first byte is LEN, above 56 a length
error and examined again in HUNT, the next KIND, the next TAG, after which LEN + 2 bytes are expected; in BODY the bytes
are counted down, and at the last the check sequence decides between the receipt, which is then owed (log 5), and a check
error. A character with a low stop bit leaves the receiver as it is, and none ends during a break (log 15). The counts of
bytes expected in HUNT and in HEADER (log 21) and the quiet count of 0 in HUNT (log 22) are the model's. -/
def Obligations.ByteArrivalFollowsTheReceiver : Prop :=
  ∀ (s : State) (c : Character), s.Quiet →
    let b := c.byte
    let hunted : Receiver := if b = 0xC3 then ⟨.header, [], 3, 0⟩ else ⟨.hunt, [], 0, 0⟩
    let arrived : Receiver → State := fun r => { s with rxdHigh := true, receiver := r }
    (s.transmitter ≠ .held → c.stopHigh = true →
      (s.receiver.phase = .hunt → exec (.byteArrival c.data c.stopHigh) s = .next (arrived hunted)) ∧
      (∀ bytes, s.receiver.phase = .header → s.receiver.bytes = bytes →
        (bytes = [] → b.toNat ≤ 56 → exec (.byteArrival c.data c.stopHigh) s = .next (arrived ⟨.header, [b], 2, 0⟩)) ∧
        (bytes = [] → 56 < b.toNat → exec (.byteArrival c.data c.stopHigh) s = .next { arrived hunted with
          counters := { s.counters with
            lengthErrors := if s.counters.lengthErrors = 65535 then 65535 else s.counters.lengthErrors + 1 } }) ∧
        (∀ len, bytes = [len] → exec (.byteArrival c.data c.stopHigh) s = .next (arrived ⟨.header, [len, b], 1, 0⟩)) ∧
        ∀ len kind, bytes = [len, kind] →
          exec (.byteArrival c.data c.stopHigh) s = .next (arrived ⟨.body, [len, kind, b], len.toNat + 2, 0⟩)) ∧
      (∀ bytes n, s.receiver.phase = .body → s.receiver.bytes = bytes → s.receiver.expected = n + 2 →
        exec (.byteArrival c.data c.stopHigh) s = .next (arrived ⟨.body, bytes ++ [b], n + 1, 0⟩)) ∧
      ∀ len kind tag payload hi, s.receiver.phase = .body →
        s.receiver.bytes = len :: kind :: tag :: payload ++ [hi] → s.receiver.expected = 1 →
        (fcs (len :: kind :: tag :: payload) = hi ++ b → exec (.byteArrival c.data c.stopHigh) s = .next
          { arrived ⟨.hunt, [], 0, 0⟩ with owed := ⟨false, false, false, some (kind, tag, payload)⟩ }) ∧
        (fcs (len :: kind :: tag :: payload) ≠ hi ++ b → exec (.byteArrival c.data c.stopHigh) s = .next
          { arrived ⟨.hunt, [], 0, 0⟩ with
            counters := { s.counters with
              checkErrors := if s.counters.checkErrors = 65535 then 65535 else s.counters.checkErrors + 1 } })) ∧
    (s.transmitter ≠ .held → c.stopHigh = false →
      exec (.byteArrival c.data c.stopHigh) s = .next { s with rxdHigh := false }) ∧
    (s.transmitter = .held → exec (.byteArrival c.data c.stopHigh) s = .next s)

/-- R151: at a tick a frame in progress with quiet count 0 has quiet count 1, and one with quiet count 1 is abandoned and
counted; in HUNT nothing happens. Once for a tick: with no examination owed GAP_ERROR changes nothing (log 4). The 0 of
the count of bytes expected in HUNT (log 21) and the 0 of the quiet count after the abandonment (log 22) are the model's.
-/
def Obligations.SecondQuietTickAbandonsTheFrame : Prop :=
  ∀ s : State, s.inReset = false →
    let t := { s with owed := { s.owed with gap := false } }
    (s.owed.gap = false → exec .gapError s = .next s) ∧
    (s.owed.gap = true → s.receiver.phase = .hunt → exec .gapError s = .next t) ∧
    (s.owed.gap = true → s.receiver.phase ≠ .hunt → s.receiver.quiet = 0 →
      exec .gapError s = .next { t with receiver := { s.receiver with quiet := 1 } }) ∧
    (s.owed.gap = true → s.receiver.phase ≠ .hunt → s.receiver.quiet = 1 →
      exec .gapError s = .next { t with
        receiver := ⟨.hunt, [], 0, 0⟩
        counters := { s.counters with
          gapErrors := if s.counters.gapErrors = 65535 then 65535 else s.counters.gapErrors + 1 } })

/-- R140, R152: a good frame clears MUTE and every retries; an unassigned KIND or a wrong LEN is answered BAD_FRAME; a
command is placed in an inbox with room; a full inbox answers BUSY and counts; a refusal without a free reply slot is
dropped and counts, once. RECEIPT hands a frame on once: with no receipt owed it changes nothing (log 5). -/
def Obligations.ReceiptOfAGoodFrame : Prop :=
  (∀ s : State, s.inReset = false → s.owed.receipt = none → exec .receipt s = .next s) ∧
  ∀ (s : State) (kind tag : Byte) (payload : List Byte), s.inReset = false →
    s.owed.receipt = some (kind, tag, payload) →
    let notices : List Notice := s.notices.map fun n => { n with retries := 0 }
    let t := { s with owed := { s.owed with receipt := none }, mute := false, notices := notices }
    let command := ∃ c : HostCommand, c.code = kind ∧ c.lenOk payload.length = true
    let counted : LinkCounters := { s.counters with
      inboxOverflows := if s.counters.inboxOverflows = 65535 then 65535 else s.counters.inboxOverflows + 1 }
    (¬ command → s.replies.length < 8 →
      exec .receipt s = .next { t with replies := s.replies ++ [⟨tag, kind, .badFrame⟩] }) ∧
    (¬ command → 8 ≤ s.replies.length → exec .receipt s = .next { t with counters := counted }) ∧
    (command → s.inbox.length < 4 →
      exec .receipt s = .next { t with inbox := s.inbox ++ [⟨kind, tag, payload, s.mute⟩] }) ∧
    (command → 4 ≤ s.inbox.length → s.replies.length < 8 →
      exec .receipt s = .next { t with replies := s.replies ++ [⟨tag, kind, .busy⟩], counters := counted }) ∧
    (command → 4 ≤ s.inbox.length → 8 ≤ s.replies.length → exec .receipt s = .next { t with counters := counted })

/-- R122, R143, R154, R155, R172: a break makes one link reset: inbox, parked list, reply queue and hold set are emptied,
the ONE_SHOT entries removed, the receiver hunts, the transmitter is HELD, a pending soft reset is cancelled, MUTE is
cleared and every notice is QUEUED with retries 0, and merged where a SENT one has returned. At its end a HELD transmitter
becomes FREE. That a BREAK in a break already detected, and an END_OF_BREAK outside one, change nothing but the level of
RXD is the model's choice (log 2), and so is the 0 of the count of bytes expected in HUNT (log 21). -/
def Obligations.BreakMakesOneLinkReset : Prop :=
  ∀ s : State, s.Quiet →
    let restarted : List Notice := s.notices.map fun n => { n with delivery := .queued, retries := 0 }
    (s.transmitter ≠ .held → exec .breakDetected s = .next { s with
      receiver := ⟨.hunt, [], 0, 0⟩, transmitter := .held, inbox := [], parked := [], replies := []
      softResetPending := false, dueQueue := s.dueQueue.filter fun e => !e.isOneShot
      notices := if ∃ n ∈ s.notices, n.delivery ≠ .queued then mergeQueued restarted else restarted
      mute := false, holdSet := ⟨false, false, false, false⟩, rxdHigh := false }) ∧
    (s.transmitter = .held → exec .breakDetected s = .next s) ∧
    (s.transmitter = .held → exec .endOfBreak s = .next { s with transmitter := .free, rxdHigh := true }) ∧
    (s.transmitter ≠ .held → exec .endOfBreak s = .next { s with rxdHigh := true })

/-- R156, R157: a FREE transmitter sends the oldest reply, which leaves the reply queue at the start; otherwise no start is
made. The completion of any frame but the SOFT_RESET reply frees the transmitter and changes nothing else. That a
TRANSMISSION_COMPLETION with no frame in transmission changes nothing is the model's choice (log 2). -/
def Obligations.RepliesLeaveInOrder : Prop :=
  ∀ s : State, s.Quiet →
    (∀ r rest, s.transmitter = .free → s.replies = r :: rest →
      exec .replyTransmissionStart s = .next { s with transmitter := .sending (.reply r), replies := rest }) ∧
    (s.transmitter ≠ .free ∨ s.replies = [] → exec .replyTransmissionStart s = .next s) ∧
    (∀ f, s.transmitter = .sending f → (∀ tag code, f ≠ .reply ⟨tag, code, .softReset⟩) →
      exec .transmissionCompletion s = .next { s with transmitter := .free }) ∧
    ((∀ f, s.transmitter ≠ .sending f) → exec .transmissionCompletion s = .next s)

/-- Every frame on the line. R147: SYNC, LEN of 56 or less, KIND, TAG, the payload and the check sequence, of a reply (but a
READ_HISTORY of more than six records, which R103 bars) and of a notice. R167, R174, R176, R177: the payloads, field by field as
Tables 10-1 and 10-6 to 10-8 lay them out and Table 10-4 codes them; the flag bits that the tables do not name are sent as 0
(log 19), and the MUTE flag as 1 or 0 (log 12). R145, R156: a frame lasts ten bit times for each byte, and TXD carries each as a
character: a low start bit, the eight data bits least significant first, a high stop bit and no parity bit, as RXD is read. TXD
is high in FREE, in HELD and while the part is held in reset. -/
def Obligations.FramesOnTheLine : Prop :=
  let one : Nat → Byte := BitVec.ofNat 8
  let two : Nat → List Byte := fun n => [one (n / 256), one n]
  let four : Nat → List Byte := fun n => two (n / 65536) ++ two n
  let bits : Bool → Bool → Bool → Bool → Byte := fun b0 b1 b2 b3 =>
    one (b0.toNat + 2 * b1.toNat + 4 * b2.toNat + 8 * b3.toNat)
  let classes : ClassSet → Byte := fun c => bits c.crossing c.watermark c.overrun c.condition
  let probeState : ProbeState → Byte := fun st => match st with | .free => 0x00 | .defined => 0x01 | .armed => 0x02
  let scheduler : SchedulerState → Byte := fun st => match st with
    | .stopped => 0x10 | .running => 0x11 | .draining => 0x12
  let engine : Engine → Byte := fun st => match st with | .idle => 0x20 | .busy _ => 0x21 | .quiesced => 0x22
  let health : Health → Byte := fun h => match h with | .good => 0x00 | .suspect _ => 0x01
  let cause : ResetCause → Byte := fun c => match c with | .power => 0 | .pin => 1 | .soft => 2
  let verdict : Verdict → Byte := fun v => match v with
    | .unknown => 0x00 | .below => 0x01 | .inside => 0x02 | .above => 0x03
  let raw : Option RawVerdict → Byte := fun r => match r with
    | none => 0xFF | some .below => 0x01 | some .inside => 0x02 | some .above => 0x03
  let value : Option Code → List Byte := fun v => match v with | none => [0xFF, 0xFF] | some code => two code.toNat
  let limits : Option Window → List Byte := fun w => match w with
    | none => [0xFF, 0xFF, 0xFF, 0xFF, 0, 0]
    | some w => two w.high.toNat ++ two w.low.toNat ++ [w.hysteresis, one w.settle]
  let definition : Definition → List Byte := fun d =>
    let style := match d.style with
      | .level w => (0, w, 0) | .window w => (1, some w, 0) | .adaptive w n => (2, some w, n) | .check => (3, none, 0)
    [one d.channel.val, one (16 * style.1 + d.cls.val)] ++ two d.period.toNat ++ two d.phase.toNat ++ limits style.2.1 ++
      [one style.2.2, one d.depth, one d.watermark,
       bits d.notify.crossing d.notify.initial d.notify.watermark d.notify.overrun]
  let record : HistoryRecord → List Byte := fun h =>
    let parts := match h.data with
      | .level code r => (0, r, some code) | .window r => (1, some r, none)
      | .check code failed => (2 + 64 * failed.toNat, none, some code)
    four h.stamp.toNat ++ [one (parts.1 + 16 * h.suspect.toNat + 32 * h.followUp.toNat), raw parts.2.1] ++ value parts.2.2
  let answers : ReplyBody → Byte → List Byte → Prop := fun body status data =>
    ∀ tag code, (Reply.mk tag code body).payload = status :: code :: data
  let notifies : NoticeContent → Byte → List Byte → List Byte → Prop := fun content cls owner part =>
    ∀ (n : Notice), n.content = content →
      n.payload = two n.seq.toNat ++ [cls, n.gap] ++ four n.stamp.toNat ++ owner ++ part
  let framed : TxFrame → Byte → Byte → List Byte → Prop := fun f kind tag payload =>
    let checked := one payload.length :: kind :: tag :: payload
    payload.length ≤ 56 ∧ f.wire.length = payload.length + 6 ∧ f.wire = 0xC3 :: checked ++ two (fcs checked).toNat
  -- frames
  (∀ r : Reply, (∀ fill overwritten records, r.body = .history fill overwritten records → records.length ≤ 6) →
    framed (.reply r) 0x81 r.tag r.payload) ∧
  (∀ n : Notice, framed (.notice n) 0x82 0 n.payload) ∧
  -- refusals
  answers .busy 0x01 [] ∧ (∀ st, answers (.busyPause st) 0x01 [scheduler st]) ∧ answers .badFrame 0x02 [] ∧
  (∀ k, answers (.badValue k) 0x03 [k]) ∧ answers .noProbe 0x04 [] ∧
  (∀ st, answers (.wrongState st) 0x05 [probeState st]) ∧
  (∀ st, answers (.wrongSchedulerState st) 0x05 [scheduler st]) ∧ (∀ free, answers (.noRoom free) 0x06 (two free)) ∧
  answers .tagInUse 0x07 [] ∧ answers .inProgress 0x08 [] ∧
  (∀ i : Fin 32, answers (.aborted i) 0x09 [one i.val]) ∧ answers .superseded 0x0A [] ∧
  -- replies with status OK
  (∀ h : HelloReport, answers (.hello h) 0x00 ([1, 0, 32] ++ two 512 ++ [24, 4, 4, 8] ++ two h.freeCount ++
    [scheduler h.scheduler, engine h.engine, health h.health, classes h.holdSet, cause h.cause])) ∧
  (∀ gen free, answers (.defined gen free) 0x00 (gen :: two free)) ∧
  (∀ gen, answers (.armed gen none) 0x00 [gen, 0, 0, 0, 0, 0]) ∧
  (∀ gen due, answers (.armed gen (some due)) 0x00 (gen :: 1 :: four due.toNat)) ∧
  (∀ gen, answers (.generation gen) 0x00 [gen]) ∧ (∀ free, answers (.deleted free) 0x00 (two free)) ∧
  (∀ p : Probe, p.state = .free → answers (.probe p) 0x00 [0x00, p.generation]) ∧
  (∀ (p : Probe) (d : Definition), p.state ≠ .free → p.defn = some d → answers (.probe p) 0x00
    ([probeState p.state, p.generation] ++ definition d ++
      [bits p.nextDue.isSome p.overrunLatch p.watermarkReached false] ++
      four (match p.nextDue with | none => 0 | some due => due.toNat) ++ two p.overruns.toNat ++ [verdict p.confirmed] ++
      (match p.candidate with | none => [0xFF, 0] | some k => [raw (some k.verdict), one k.count]) ++
      (match p.mode with | none => [0, 0] | some .watching => [1, 0] | some (.escalated n) => [2, one n]) ++
      value p.lastValue ++ two p.runs.toNat ++ [one p.ring.length] ++ two p.overwritten.toNat)) ∧
  (∀ (i : Fin 32) (code : Code) suspect, answers (.measured i code suspect) 0x00
    ([one i.val] ++ two code.toNat ++ [one suspect.toNat])) ∧
  (∀ v, answers (.counter v) 0x00 (four v.toNat)) ∧
  (∀ v st, answers (.time v st) 0x00 (four v.toNat ++ [scheduler st])) ∧
  (∀ fill overwritten records, answers (.history fill overwritten records) 0x00
    ([one fill] ++ two overwritten.toNat ++ [one records.length] ++ records.flatMap record)) ∧
  (∀ removed notFound, answers (.acked removed notFound) 0x00 [one removed, one notFound]) ∧
  (∀ set n, answers (.held set n) 0x00 [classes set, one n]) ∧
  (∀ timeout mute rate sent, answers (.linkConfig timeout mute rate sent) 0x00
    ([timeout, one mute.toNat] ++
      four (match rate with | .r9600 => 9600 | .r38400 => 38400 | .r115200 => 115200 | .r460800 => 460800) ++
      [one sent])) ∧
  (∀ tolerance h, answers (.checkConfig tolerance h) 0x00
    [tolerance, health h, match h with | .suspect true => 1 | _ => 0]) ∧
  (∀ (e : LinkCounters) dropped, answers (.counters e dropped) 0x00
    (two e.checkErrors.toNat ++ two e.lengthErrors.toNat ++ two e.gapErrors.toNat ++ two e.inboxOverflows.toNat ++
      four dropped.toNat)) ∧
  answers .softReset 0x00 [] ∧
  -- notices
  (∀ (i : Fin 32) gen previous new v suspect merged, notifies (.crossing i gen previous new v suspect merged) 0
    [one i.val, gen] ([verdict previous, raw (some new)] ++ value v ++ [one suspect.toNat, merged])) ∧
  (∀ (i : Fin 32) gen fill depth, notifies (.watermark i gen fill depth) 1 [one i.val, gen] [one fill, one depth]) ∧
  (∀ (i : Fin 32) gen overruns, notifies (.overrun i gen overruns) 2 [one i.val, gen] (two overruns.toNat)) ∧
  (∀ c quiesce, notifies (.condition (.startup c quiesce)) 3 [0xFF, 0xFF] [0, cause c, one quiesce.toNat]) ∧
  notifies (.condition .converterSuspect) 3 [0xFF, 0xFF] [1, 0, 0] ∧
  notifies (.condition .converterGood) 3 [0xFF, 0xFF] [2, 0, 0] ∧
  notifies (.condition .quiesceOn) 3 [0xFF, 0xFF] [3, 0, 0] ∧
  notifies (.condition .quiesceOff) 3 [0xFF, 0xFF] [4, 0, 0] ∧
  -- levels of the line
  (∀ f : TxFrame, f.bitTimes = 10 * f.wire.length) ∧
  (∀ (s : State) (f : TxFrame) (before after : List Byte) (b : Byte), s.inReset = false → s.transmitter = .sending f →
    f.wire = before ++ b :: after →
    (List.range 10).map (fun k => s.txdHigh (10 * before.length + k)) =
      [false, b.getLsbD 0, b.getLsbD 1, b.getLsbD 2, b.getLsbD 3, b.getLsbD 4, b.getLsbD 5, b.getLsbD 6, b.getLsbD 7,
       true]) ∧
  (∀ (c : Character) (k : Fin 8), c.byte.getLsbD k.val = c.data[k]) ∧
  ∀ (s : State) (k : Nat), s.inReset = true ∨ s.transmitter = .free ∨ s.transmitter = .held → s.txdHigh k = true

/-! ### The measurement engine (Chapter 3) -/

/-- R58: the assertion of QUIESCE. An IDLE engine abandons nothing; a scheduled operation is discarded, and in
DRAINING that is the drain completion (R31); a
one-shot whose MEASURE is awaited returns to the head of the due queue, and any other one-shot is discarded. Each becomes
QUIESCED and submits QUIESCE_ON. R59: at the release the engine becomes IDLE and QUIESCE_OFF is submitted. That an
assertion of an asserted line and a release of a released one change nothing is the model's choice (log 2), and so
is the number of an outcome that waits (log 8). -/
def Obligations.QuiesceAbandonsTheOperation : Prop :=
  ∀ s : State, s.Quiet →
    let on : State → State := fun t => { t with engine := .quiesced }.submit (.condition .quiesceOn)
    (s.engine = .idle → exec .quiesceAsserted s = .next (on s)) ∧
    (∀ e op channel, s.engine = .busy ⟨.scheduled e, op, channel⟩ → s.scheduler ≠ .draining →
      exec .quiesceAsserted s = .next (on s)) ∧
    (∀ e op channel, s.engine = .busy ⟨.scheduled e, op, channel⟩ → s.scheduler = .draining → s.LinksDistinct →
      exec .quiesceAsserted s = .next (on ({ s with scheduler := .stopped }.answerPauses (.counter s.counter)))) ∧
    (∀ e op channel, s.engine = .busy ⟨.oneShot e, op, channel⟩ →
      (∃ p ∈ s.parked, p.link = e.link ∧ p.outcome = .awaited) →
      exec .quiesceAsserted s = .next (on { s with dueQueue := .oneShot e :: s.dueQueue })) ∧
    (∀ e op channel, s.engine = .busy ⟨.oneShot e, op, channel⟩ →
      (¬ ∃ p ∈ s.parked, p.link = e.link ∧ p.outcome = .awaited) →
      exec .quiesceAsserted s = .next (on s)) ∧
    (s.engine = .quiesced → exec .quiesceAsserted s = .next s) ∧
    (s.engine = .quiesced →
      exec .quiesceReleased s = .next ({ s with engine := .idle }.submit (.condition .quiesceOff))) ∧
    (s.engine ≠ .quiesced → exec .quiesceReleased s = .next s)

/-- R48 to R50, R67: an IDLE engine takes the head of the due queue and starts the operation that the entry and the probe
as it stands choose; with an empty queue, or not IDLE, no take is made. -/
def Obligations.TakeStartsTheHeadOfTheQueue : Prop :=
  ∀ s : State, s.Quiet →
    (∀ x rest d, s.engine = .idle → s.dueQueue = x :: rest → (s.probe x.probe).defn = some d →
      let windowRun : Window → Operation := fun w =>
        .window (w.upperLevel (s.probe x.probe).confirmed) (w.lowerLevel (s.probe x.probe).confirmed) []
      exec .take s = .next { s with
        dueQueue := rest
        engine := .busy ⟨x, (match x, d.style with
          | .oneShot _, _ => .level
          | .scheduled _, .level _ => .level
          | .scheduled _, .window w => windowRun w
          | .scheduled _, .adaptive w _ => if (s.probe x.probe).mode = some .watching then windowRun w else .level
          | .scheduled _, .check => .check), d.channel⟩ }) ∧
    (s.engine ≠ .idle ∨ s.dueQueue = [] → exec .take s = .next s)

/-- R51, R52: a conversion yields 0 below VREFL, 4095 above VREFH, and the code in between; the end of gate 1 records HIGHER if
the code exceeds the upper level and NOT_HIGHER otherwise, and changes nothing else. -/
def Obligations.Gate1RecordsItsAnswer : Prop :=
  ∀ level : Level, (level ≤ 0 → convert level = 0) ∧ (4095 ≤ level → convert level = 4095) ∧
    (0 ≤ level → level ≤ 4095 → ((convert level).toNat : Int) = level) ∧
    ∀ (s : State) (x : DueEntry) (upper : Code) (lower : Option Code) (channel : Fin 17), s.Quiet →
      s.engine = .busy ⟨x, .window upper lower [], channel⟩ →
      exec (.gate1End level) s = .next { s with
        engine := .busy ⟨x, .window upper lower
          [if upper.toNat < (convert level).toNat then .higher else .notHigher], channel⟩ }

/-- R66 to R69: on one channel value a WINDOW run, with the comparison levels of R67 and one or two gates as R52 makes
them, and a LEVEL run give the same raw verdict, under every confirmed verdict. -/
def Obligations.WindowAndLevelRunsAgree : Prop :=
  ∀ (w : Window) (c : Verdict) (level : Level), w.wellFormed = true →
    let op := Operation.window (w.upperLevel c) (w.lowerLevel c) [gateAnswer level (w.upperLevel c)]
    op.result? level = some (.window (w.classify c (convert level)))

/-- R69, Table 4-1: the classification of a code by the confirmed verdict; R72: the settling step. -/
def Obligations.ClassificationAndSettling : Prop :=
  (∀ (w : Window) (c : Verdict) (v : Code), w.wellFormed = true →
    let high := w.high.toNat
    let low := w.low.toNat
    let h := w.hysteresis.toNat
    (c = .unknown ∨ c = .inside →
      w.classify c v = if high < v.toNat then .above else if v.toNat < low then .below else .inside) ∧
    (c = .below →
      w.classify c v = if high < v.toNat then .above else if v.toNat < low + h then .below else .inside) ∧
    (c = .above →
      w.classify c v = if high - h < v.toNat then .above else if v.toNat < low then .below else .inside)) ∧
  ∀ (settle : Nat) (c : Verdict) (k : Option Candidate) (r : RawVerdict), 1 ≤ settle →
    (c = .unknown → settleVerdict settle c k r = (r.toVerdict, none)) ∧
    (c = r.toVerdict → settleVerdict settle c k r = (c, none)) ∧
    (c ≠ .unknown → c ≠ r.toVerdict →
      (∀ n, k = some ⟨r, n⟩ →
        settleVerdict settle c k r = if n + 1 = settle then (r.toVerdict, none) else (c, some ⟨r, n + 1⟩)) ∧
      ((∀ n, k ≠ some ⟨r, n⟩) →
        settleVerdict settle c k r = if settle = 1 then (r.toVerdict, none) else (c, some ⟨r, 1⟩)))

/-- R53, R70, R71, R97 to R100: a counted LEVEL run of a probe without a window: the runs rise, the code is the last value, the
latch is cleared and the record appended, the oldest pushed out of a full ring and counted. Written out outside DRAINING, for
a ring, short of its watermark; in general by runCounted, with the watermark (R101) and the drain completion (R31; the number of
an outcome that waits is the model's, log 8). -/
def Obligations.CountedLevelRunIsRecorded : Prop :=
  ∀ (s : State) (level : Level) (e : ScheduledEntry) (channel : Fin 17) (d : Definition), s.Quiet →
    s.engine = .busy ⟨.scheduled e, .level, channel⟩ → (s.scheduler = .draining → s.LinksDistinct) →
    (s.probe e.probe).state = .armed → (s.probe e.probe).generation = e.generation →
    (s.probe e.probe).defn = some d → d.style = .level none → (s.probe e.probe).mode = none →
    let p := s.probe e.probe
    let record : HistoryRecord := ⟨s.counter, .level (convert level) none, s.health ≠ .good, e.followUp⟩
    let q := { p with
      runs := if p.runs = 65535 then 65535 else p.runs + 1
      lastValue := some (convert level) }
    let full := d.depth ≤ p.ring.length
    (s.scheduler ≠ .draining → 1 ≤ d.depth → p.ring.length + 1 ≠ d.watermark →
      exec (.scheduledCompletion level) s = .next { s with
        engine := .idle
        probes := s.probes.set e.probe { q with
          overrunLatch := false
          ring := (if full then p.ring.drop 1 else p.ring) ++ [record]
          overwritten := if full then if p.overwritten = 65535 then 65535 else p.overwritten + 1 else p.overwritten } }) ∧
    exec (.scheduledCompletion level) s = .next (s.runCounted e.probe d q record [])

/-- R4, R53: a completion whose probe is not ARMED, or has another generation, is stale: outside DRAINING nothing comes of
it but an IDLE engine. R31, R32: in DRAINING it is still the drain completion: STOPPED, and each awaited PAUSE is
answered OK with the counter value, in parking order, as R164 gives; written out where reply slots are free for all of
them. The number of an outcome that waits is the model's (log 8). -/
def Obligations.StaleCompletionsAndDrains : Prop :=
  ∀ (s : State) (level : Level) (e : ScheduledEntry) (op : Operation) (channel : Fin 17) (r : RunResult), s.Quiet →
    s.engine = .busy ⟨.scheduled e, op, channel⟩ → op.result? level = some r →
    ((s.probe e.probe).state ≠ .armed ∨ (s.probe e.probe).generation ≠ e.generation) →
    (s.scheduler ≠ .draining → exec (.scheduledCompletion level) s = .next { s with engine := .idle }) ∧
    (s.scheduler = .draining → s.LinksDistinct → exec (.scheduledCompletion level) s = .next
      ({ s with engine := .idle, scheduler := .stopped }.answerPauses (.counter s.counter))) ∧
    (s.scheduler = .draining → s.LinksDistinct → (∀ p ∈ s.parked, p.outcome = .awaited) →
      s.replies.length + s.parked.length ≤ 8 →
      exec (.scheduledCompletion level) s = .next { s with
        engine := .idle
        scheduler := .stopped
        parked := s.parked.filter fun p => !p.isPause
        replies := s.replies ++
          (s.parked.filter ParkedEntry.isPause).map fun p => ⟨p.tag, 0x21, .counter s.counter⟩ })

/-- R65 to R75, R80, R97 to R101: a counted run, LEVEL or WINDOW, of a probe with a window, in any scheduler state and of any
depth, that does not escalate the probe. The raw verdict is, of a LEVEL run, the class of its code by the confirmed verdict as
it stood and, of a WINDOW run, the answer of its gates. The settling step is applied, and the move reported as a CROSSING
notice if INITIAL, for an adoption, or CROSSING, for any other move, is in the notify set; its value is absent of a WINDOW
run. A LEVEL run sets the last value and counts an escalation down. The record is of the run's kind. In DRAINING the
number of an outcome that waits is the model's (log 8). -/
def Obligations.CountedRunReportsItsMove : Prop :=
  ∀ (s : State) (level : Level) (e : ScheduledEntry) (op : Operation) (channel : Fin 17) (d : Definition) (w : Window)
    (value : Option Code) (raw : RawVerdict), s.Quiet →
    s.engine = .busy ⟨.scheduled e, op, channel⟩ → (s.scheduler = .draining → s.LinksDistinct) →
    (s.probe e.probe).state = .armed → (s.probe e.probe).generation = e.generation →
    (s.probe e.probe).defn = some d → d.style.window? = some w →
    let p := s.probe e.probe
    (op = .level ∧ value = some (convert level) ∧ raw = w.classify p.confirmed (convert level)) ∨
      (op.result? level = some (.window raw) ∧ value = none ∧
        (d.style = .window w ∨ p.mode ≠ some .watching ∨ p.confirmed = .unknown ∨ p.confirmed = raw.toVerdict)) →
    let settled := settleVerdict w.settle p.confirmed p.candidate raw
    let q := { p with
      confirmed := settled.1
      candidate := settled.2
      runs := if p.runs = 65535 then 65535 else p.runs + 1
      lastValue := if value = none then p.lastValue else value
      mode := match value, p.mode with
        | some _, some (.escalated n) => if n ≤ 1 then some .watching else some (.escalated (n - 1))
        | _, mode => mode }
    let record : HistoryRecord :=
      ⟨s.counter, (match value with | some code => .level code (some raw) | none => .window raw), s.health ≠ .good,
        e.followUp⟩
    let notified := if p.confirmed = .unknown then d.notify.initial else d.notify.crossing
    exec (.scheduledCompletion level) s = .next (s.runCounted e.probe d q record
      (if settled.1 ≠ p.confirmed ∧ notified = true then
        [.crossing e.probe p.generation p.confirmed raw value (s.health ≠ .good) 1] else []))

/-- R98, R101: the append that raises the fill to the watermark with the watermark-reached flag clear sets the flag, and
with WATERMARK in the notify set submits a notice of the fill and the depth: here at a counted LEVEL run of a probe without a
window, outside DRAINING. -/
def Obligations.WatermarkIsReported : Prop :=
  ∀ (s : State) (level : Level) (e : ScheduledEntry) (channel : Fin 17) (d : Definition), s.Quiet →
    s.engine = .busy ⟨.scheduled e, .level, channel⟩ → s.scheduler ≠ .draining →
    (s.probe e.probe).state = .armed → (s.probe e.probe).generation = e.generation →
    (s.probe e.probe).defn = some d → d.style = .level none → (s.probe e.probe).mode = none →
    (s.probe e.probe).ring.length + 1 = d.watermark → d.watermark ≤ d.depth →
    (s.probe e.probe).watermarkReached = false →
    let p := s.probe e.probe
    let t := { s with
      engine := .idle
      probes := s.probes.set e.probe { p with
        runs := if p.runs = 65535 then 65535 else p.runs + 1
        lastValue := some (convert level)
        overrunLatch := false
        ring := p.ring ++ [⟨s.counter, .level (convert level) none, s.health ≠ .good, e.followUp⟩]
        watermarkReached := true } }
    (d.notify.watermark = false → exec (.scheduledCompletion level) s = .next t) ∧
    (d.notify.watermark = true → exec (.scheduledCompletion level) s = .next
      (t.submit (.watermark e.probe p.generation d.watermark d.depth)))

/-- R86 to R88, R97 to R101: a counted CHECK run, in any scheduler state and of any depth: judged against 2458 by the tolerance,
the health moved by Table 5-2 with its CONDITION notice submitted, runs and last value taken, the latch cleared, no verdict
formed; the record says whether the check failed and whether the health, as moved, is SUSPECT. In DRAINING the number of an outcome
that waits is the model's (log 8). -/
def Obligations.CountedCheckMovesTheHealth : Prop :=
  ∀ (s : State) (level : Level) (e : ScheduledEntry) (channel : Fin 17) (d : Definition), s.Quiet →
    s.engine = .busy ⟨.scheduled e, .check, channel⟩ → (s.scheduler = .draining → s.LinksDistinct) →
    (s.probe e.probe).state = .armed → (s.probe e.probe).generation = e.generation →
    (s.probe e.probe).defn = some d → d.style = .check →
    let p := s.probe e.probe
    let v := (convert level).toNat
    let passes := v ≤ 2458 + s.tolerance.toNat ∧ 2458 ≤ v + s.tolerance.toNat
    let judged := fun (health : Health) (found : List NoticeContent) =>
      { s with health := health }.runCounted e.probe d
        { p with runs := if p.runs = 65535 then 65535 else p.runs + 1, lastValue := some (convert level) }
        ⟨s.counter, .check (convert level) (¬ passes), health ≠ Health.good, e.followUp⟩ found
    (s.health = .good → passes → exec (.scheduledCompletion level) s = .next (judged .good [])) ∧
    (s.health = .good → ¬ passes →
      exec (.scheduledCompletion level) s = .next (judged (.suspect false) [.condition .converterSuspect])) ∧
    (s.health = .suspect false → passes → exec (.scheduledCompletion level) s = .next (judged (.suspect true) [])) ∧
    (s.health = .suspect true → passes →
      exec (.scheduledCompletion level) s = .next (judged .good [.condition .converterGood])) ∧
    (s.health ≠ .good → ¬ passes → exec (.scheduledCompletion level) s = .next (judged (.suspect false) []))

/-- R45, R78 to R81: escalation of an ADAPTIVE probe. The counted WINDOW run of a WATCHING probe whose raw verdict differs from a
known confirmed verdict leaves it ESCALATED with the confirm runs, after the settling step, with its report and its record; in
RUNNING a follow-up entry of this tick is queued besides, in order, and in DRAINING none is and the drain completes. Outside
DRAINING and at depth 0, a counted LEVEL run of an ESCALATED probe that finds the confirmed verdict: the remaining count falls
by one, and at 0 the probe is WATCHING. The tick of the follow-up entry, by which it is ordered, is the model's elapsed, and the
number of an outcome that waits is the model's (log 8). -/
def Obligations.EscalationRisesAndRunsDown : Prop :=
  ∀ (s : State) (level : Level) (e : ScheduledEntry) (op : Operation) (channel : Fin 17) (d : Definition) (w : Window)
    (confirmRuns : Nat), s.Quiet → s.engine = .busy ⟨.scheduled e, op, channel⟩ →
    let p := s.probe e.probe
    p.state = .armed → p.generation = e.generation → p.defn = some d → d.style = .adaptive w confirmRuns →
    let runs := if p.runs = 65535 then 65535 else p.runs + 1
    (∀ raw, op.result? level = some (.window raw) → p.mode = some .watching → p.confirmed ≠ .unknown →
      p.confirmed ≠ raw.toVerdict → (s.scheduler = .draining → s.LinksDistinct) →
      let settled := settleVerdict w.settle p.confirmed p.candidate raw
      let t := s.runCounted e.probe d
        { p with
          mode := some (.escalated confirmRuns), confirmed := settled.1, candidate := settled.2, runs := runs }
        ⟨s.counter, .window raw, s.health ≠ .good, e.followUp⟩
        (if settled.1 ≠ p.confirmed ∧ d.notify.crossing = true then
          [.crossing e.probe p.generation p.confirmed raw none (s.health ≠ .good) 1] else [])
      (s.scheduler ≠ .running → exec (.scheduledCompletion level) s = .next t) ∧
      (s.scheduler = .running → ∃ queue,
        exec (.scheduledCompletion level) s = .next { t with dueQueue := queue } ∧
        s.dueQueue.Sublist queue ∧ queue.length = s.dueQueue.length + 1 ∧
        .scheduled ⟨e.probe, e.generation, s.counter, true, s.elapsed⟩ ∈ queue ∧
        (s.dueQueue.Pairwise s.MayPrecede → (∀ x ∈ s.dueQueue, ¬ x.isScheduledOf e.probe) →
          queue.Pairwise s.MayPrecede))) ∧
    ∀ n, op = .level → s.scheduler ≠ .draining → d.depth = 0 → p.mode = some (.escalated n) → 1 ≤ n →
      p.confirmed = (w.classify p.confirmed (convert level)).toVerdict →
      exec (.scheduledCompletion level) s = .next { s with
        engine := .idle
        probes := s.probes.set e.probe { p with
          candidate := none
          mode := if n = 1 then some .watching else some (.escalated (n - 1))
          runs := runs, lastValue := some (convert level), overrunLatch := false } }

/-- R54, R164: the completion of a one-shot whose MEASURE is awaited queues its reply, with the code and the suspect flag, and
unparks the entry; with no free reply slot, or an earlier outcome waiting, the entry waits with this outcome, which is then the
last fixed (log 8); without an awaited entry the code is discarded. Nothing else changes but an IDLE engine. -/
def Obligations.OneShotAnswersItsMeasure : Prop :=
  ∀ (s : State) (level : Level) (e : OneShotEntry) (op : Operation) (channel : Fin 17), s.Quiet →
    s.engine = .busy ⟨.oneShot e, op, channel⟩ →
    (∀ before p after, s.parked = before ++ p :: after → (∀ q ∈ before ++ after, q.link ≠ e.link) → p.link = e.link →
      p.command = .measure e.probe → p.outcome = .awaited → (∀ q ∈ s.parked, q.outcome = .awaited) →
      s.replies.length < 8 →
      exec (.oneShotCompletion level) s = .next { s with
        engine := .idle
        parked := before ++ after
        replies := s.replies ++ [⟨p.tag, 0x16, .measured e.probe (convert level) (s.health ≠ .good)⟩] }) ∧
    (∀ before p after, s.parked = before ++ p :: after → (∀ q ∈ before ++ after, q.link ≠ e.link) → p.link = e.link →
      p.outcome = .awaited → 8 ≤ s.replies.length ∨ (∃ q ∈ s.parked, q.outcome ≠ .awaited) →
      exec (.oneShotCompletion level) s = .next { s with
        engine := .idle
        parked := before ++
          { p with outcome := .fixed s.nextFix (.measured e.probe (convert level) (s.health ≠ .good)) } :: after
        nextFix := s.nextFix + 1 }) ∧
    ((∀ p ∈ s.parked, p.link = e.link → p.outcome ≠ .awaited) →
      exec (.oneShotCompletion level) s = .next { s with engine := .idle })

/-- R165: with a free slot, of the waiting parked outcomes the one fixed first is queued as a reply, and its entry leaves
the list; without a slot it stays. That PARKED_REPLY_QUEUED without a slot or a waiting outcome changes nothing is the model's
choice (log 2), and so are the numbers by which the order of fixing is known (log 8). -/
def Obligations.WaitingOutcomesAreQueuedInOrder : Prop :=
  ∀ s : State, s.Quiet →
    (∀ before p after n body, s.parked = before ++ p :: after → p.outcome = .fixed n body →
      (∀ q ∈ before ++ after, q.link ≠ p.link ∧ ∀ m b, q.outcome = .fixed m b → n < m) → s.replies.length < 8 →
      exec .parkedReplyQueued s = .next { s with
        parked := before ++ after
        replies := s.replies ++
          [⟨p.tag, match p.command with | .measure _ => 0x16 | .pause => 0x21, body⟩] }) ∧
    ((∀ p ∈ s.parked, p.outcome = .awaited) ∨ 8 ≤ s.replies.length → exec .parkedReplyQueued s = .next s)

/-! ### Commands of the host -/

/-- R161: no command is taken unless a frame is in the inbox, a reply slot is free, no fixed parked outcome waits and no soft
reset is pending. That a command's row is the taking of its own frame, which must be the oldest, is the model's (log 3), and so
is that a row out of place changes nothing (log 2). -/
def Obligations.CommandsWaitForTheirConditions : Prop :=
  ∀ (s : State) (c : HostCommand), s.Quiet →
    (s.inbox = [] ∨ (∃ f rest, s.inbox = f :: rest ∧ f.kind ≠ c.code) ∨ 8 ≤ s.replies.length ∨
      (∃ p ∈ s.parked, p.outcome ≠ .awaited) ∨ s.softResetPending = true) →
    exec c.instr s = .next s

/-- R162: a tag that a parked entry carries is refused TAG_IN_USE before any other check, and the command has none of its
effects. -/
def Obligations.TagInUseComesFirst : Prop :=
  ∀ (s : State) (c : HostCommand) (f : Frame) (rest : List Frame), s.MayTake c f rest →
    (∃ p ∈ s.parked, p.tag = f.tag) →
    exec c.instr s = .next { s with inbox := rest, replies := s.replies ++ [⟨f.tag, c.code, .tagInUse⟩] }

/-- R1: a command that names a probe by an id above 31 is answered NO_PROBE before any other check of its own, and no
field of any record changes. -/
def Obligations.NoProbeAboveThirtyOne : Prop :=
  ∀ (s : State) (c : HostCommand) (f : Frame) (rest : List Frame), s.Taking c f rest →
    c ∈ [HostCommand.define, .arm, .disarm, .delete, .setLimits, .readProbe, .measure, .readHistory] →
    31 < (byteAt f.payload 0).toNat →
    exec c.instr s = .next { s with inbox := rest, replies := s.replies ++ [⟨f.tag, c.code, .noProbe⟩] }

/-- R168, R18, R25: HELLO, READ_PROBE and READ_TIME reply with things as they stand at the taking and change nothing
else. -/
def Obligations.ReadingCommandsOnlyReply : Prop :=
  ∀ (s : State) (f : Frame) (rest : List Frame) (i : Fin 32),
    let reply : ReplyBody → State := fun body =>
      { s with inbox := rest, replies := s.replies ++ [⟨f.tag, f.kind, body⟩] }
    (s.Taking .hello f rest → exec .hello s = .next (reply
      (.hello ⟨s.freeCount, s.scheduler, s.engine, s.health, s.holdSet, s.resetCause⟩))) ∧
    (s.Taking .readProbe f rest → f.names i → exec .readProbe s = .next (reply (.probe (s.probe i)))) ∧
    (s.Taking .readTime f rest → exec .readTime s = .next (reply (.time s.counter s.scheduler)))

/-- R6 step 3, R7 to R10: a definition is accepted exactly when its twelve fields meet their conditions, and otherwise the
field named is the first that does not. R11: the accepted definition holds the values carried. -/
def Obligations.DefinitionFieldsAreCheckedInOrder : Prop :=
  ∀ f : DefineFields,
    let style := f.style.toNat
    let present := f.high ≠ 0xFFFF
    let ok : Nat → Prop := fun k => match k with
      | 1 => f.channel.toNat ≤ 16
      | 2 => style ≤ 3 ∧ (style = 3 ↔ f.channel.toNat = 16)
      | 3 => 1 ≤ f.period.toNat
      | 4 => f.phase.toNat < f.period.toNat
      | 5 => f.cls.toNat ≤ 3
      | 6 => (style = 1 ∨ style = 2 → present) ∧ (style = 3 → ¬ present) ∧
          (present → f.high.toNat ≤ 4095 ∧ f.low.toNat ≤ 4095 ∧ f.low.toNat ≤ f.high.toNat)
      | 7 => present → f.hysteresis.toNat ≤ f.high.toNat - f.low.toNat
      | 8 => present → 1 ≤ f.settle.toNat ∧ f.settle.toNat ≤ 8
      | 9 => style = 2 → 1 ≤ f.confirmRuns.toNat ∧ f.confirmRuns.toNat ≤ 16
      | 10 => f.depth.toNat ≤ 64
      | 11 => f.watermark.toNat ≤ f.depth.toNat
      | 12 => f.notify.toNat < 16
      | _ => True
    ((∃ d, checkDefinition f = .ok d) ↔ ∀ k, ok k) ∧
    (∀ d, checkDefinition f = .ok d → d.wellFormed = true ∧ d.channel.val = f.channel.toNat ∧ d.style.code = style ∧
      d.period = f.period ∧ d.phase = f.phase ∧ d.cls.val = f.cls.toNat ∧
      CarriesWindow d.style.window? f.high f.low f.hysteresis f.settle ∧
      d.style.confirmRuns? = (if style = 2 then some f.confirmRuns.toNat else none) ∧
      d.depth = f.depth.toNat ∧ d.watermark = f.watermark.toNat ∧
      d.notify = ⟨f.notify.getLsbD 0, f.notify.getLsbD 1, f.notify.getLsbD 2, f.notify.getLsbD 3⟩) ∧
    ∀ k : Byte, checkDefinition f = .error k ↔ (¬ ok k.toNat ∧ ∀ j, j < k.toNat → ok j)

/-- R3, R6, R11: DEFINE of a FREE probe with sound fields and room in the pool makes it DEFINED with a new generation, an
empty ring and the depth taken from the pool; the refusals, in their order, change nothing. The
fields are those of Table 10-5, most significant byte first. -/
def Obligations.DefineTakesItsDepth : Prop :=
  ∀ (s : State) (f : Frame) (rest : List Frame) (i : Fin 32), s.Taking .define f rest → f.names i →
    let p := s.probe i
    let reply : ReplyBody → State := fun body =>
      { s with inbox := rest, replies := s.replies ++ [⟨f.tag, 0x10, body⟩] }
    (∀ b0 b1 b2 b3 b4 b5 b6 b7 b8 b9 b10 b11 b12 b13 b14 b15 b16 : Byte,
      f.payload = [b0, b1, b2, b3, b4, b5, b6, b7, b8, b9, b10, b11, b12, b13, b14, b15, b16] →
      defineFields f.payload =
        { channel := b1, style := BitVec.ofNat 4 (b2.toNat / 16), cls := BitVec.ofNat 4 (b2.toNat % 16)
          period := b3 ++ b4, phase := b5 ++ b6, high := b7 ++ b8, low := b9 ++ b10, hysteresis := b11, settle := b12
          confirmRuns := b13, depth := b14, watermark := b15, notify := b16 }) ∧
    (p.state ≠ .free → exec .define s = .next (reply (.wrongState p.state))) ∧
    (∀ k, p.state = .free → checkDefinition (defineFields f.payload) = .error k →
      exec .define s = .next (reply (.badValue k))) ∧
    (∀ d, p.state = .free → checkDefinition (defineFields f.payload) = .ok d → s.freeCount < d.depth →
      exec .define s = .next (reply (.noRoom s.freeCount))) ∧
    ∀ d, p.state = .free → checkDefinition (defineFields f.payload) = .ok d → d.depth ≤ s.freeCount →
      exec .define s = .next { reply (.defined (p.generation + 1) (s.freeCount - d.depth)) with
        freeCount := s.freeCount - d.depth
        probes := s.probes.set i
          { state := .defined, generation := p.generation + 1, defn := some d, nextDue := none, overruns := 0
            overrunLatch := false, confirmed := .unknown, candidate := none
            mode := match d.style with | .adaptive _ _ => some .watching | _ => none
            lastValue := none, runs := 0, ring := [], overwritten := 0, watermarkReached := false } }

/-- R12, R13: ARM of a DEFINED probe; DISARM of an ARMED probe removes its SCHEDULED entry and leaves an operation in
flight. In any other state each is refused WRONG_STATE. -/
def Obligations.ArmAndDisarm : Prop :=
  ∀ (s : State) (f : Frame) (rest : List Frame) (i : Fin 32), f.names i →
    let p := s.probe i
    let reply : ReplyBody → State := fun body =>
      { s with inbox := rest, replies := s.replies ++ [⟨f.tag, f.kind, body⟩] }
    (s.Taking .arm f rest →
      (p.state ≠ .defined → exec .arm s = .next (reply (.wrongState p.state))) ∧
      ∀ d, p.state = .defined → p.defn = some d →
        let due := if s.scheduler = .running then some (align s.counter d.period d.phase) else none
        exec .arm s = .next { reply (.armed (p.generation + 1) due) with
          probes := s.probes.set i { p with
            state := .armed, generation := p.generation + 1, confirmed := .unknown, candidate := none, runs := 0
            mode := match d.style with | .adaptive _ n => some (.escalated n) | _ => none
            overruns := 0, overrunLatch := false, nextDue := due } }) ∧
    (s.Taking .disarm f rest →
      (p.state ≠ .armed → exec .disarm s = .next (reply (.wrongState p.state))) ∧
      (p.state = .armed → exec .disarm s = .next { reply (.generation p.generation) with
        probes := s.probes.set i { p with state := .defined, nextDue := none }
        dueQueue := s.dueQueue.filter fun x => !x.isScheduledOf i }))

/-- R14, R15: DELETE returns the record and its depth, removes the probe's entries, and answers first; a MEASURE parked on
the probe is then answered ABORTED if a further slot is free, and waits with that outcome otherwise, under a number that is the
model's (log 8). -/
def Obligations.DeleteReturnsEverything : Prop :=
  ∀ (s : State) (f : Frame) (rest : List Frame) (i : Fin 32), s.Taking .delete f rest → f.names i →
    let p := s.probe i
    let reply : ReplyBody → State := fun body =>
      { s with inbox := rest, replies := s.replies ++ [⟨f.tag, 0x13, body⟩] }
    (p.state = .free → exec .delete s = .next (reply (.wrongState .free))) ∧
    ∀ d, p.state ≠ .free → p.defn = some d →
      let t := { reply (.deleted (s.freeCount + d.depth)) with
        freeCount := s.freeCount + d.depth
        dueQueue := s.dueQueue.filter fun x => !(x.isScheduledOf i || x.isOneShotOf i)
        probes := s.probes.set i
          { state := .free, generation := p.generation, defn := none, nextDue := none, overruns := 0
            overrunLatch := false, confirmed := .unknown, candidate := none, mode := none, lastValue := none
            runs := 0, ring := [], overwritten := 0, watermarkReached := false } }
      ((∀ q ∈ s.parked, q.command ≠ .measure i) → exec .delete s = .next t) ∧
      ∀ before q after, s.parked = before ++ q :: after → q.command = .measure i →
        (∀ x ∈ before ++ after, x.command ≠ .measure i ∧ x.link ≠ q.link) →
        (s.replies.length + 2 ≤ 8 → exec .delete s = .next { t with
          parked := before ++ after, replies := t.replies ++ [⟨q.tag, 0x16, .aborted i⟩] }) ∧
        (s.replies.length + 1 = 8 → exec .delete s = .next { t with
          parked := before ++ { q with outcome := .fixed s.nextFix (.aborted i) } :: after
          nextFix := s.nextFix + 1 })

/-- R16, R17: SET_LIMITS of a probe with another style than CHECK and sound fields removes its SCHEDULED entry and starts it
from UNKNOWN under a new generation; on a FREE or CHECK probe it is refused WRONG_STATE, and the first unsound
field is named. The window is the one carried. -/
def Obligations.SetLimitsStartsFromUnknown : Prop :=
  ∀ (s : State) (f : Frame) (rest : List Frame) (i : Fin 32) (d : Definition), s.Taking .setLimits f rest → f.names i →
    let p := s.probe i
    let reply : ReplyBody → State := fun body =>
      { s with inbox := rest, replies := s.replies ++ [⟨f.tag, 0x14, body⟩] }
    let sent := checkWindow (match d.style with | .level _ => .optional | .check => .barred | _ => .required)
      (halfAt f.payload 1) (halfAt f.payload 3) (byteAt f.payload 5) (byteAt f.payload 6)
    (∀ b0 b1 b2 b3 b4 b5 b6 : Byte, f.payload = [b0, b1, b2, b3, b4, b5, b6] → halfAt f.payload 1 = b1 ++ b2 ∧
      halfAt f.payload 3 = b3 ++ b4 ∧ byteAt f.payload 5 = b5 ∧ byteAt f.payload 6 = b6) ∧
    (p.state = .free → exec .setLimits s = .next (reply (.wrongState .free))) ∧
    (p.state ≠ .free → p.defn = some d → d.style = .check →
      exec .setLimits s = .next (reply (.wrongState p.state))) ∧
    (∀ k, p.state ≠ .free → p.defn = some d → d.style ≠ .check → sent = .error k →
      exec .setLimits s = .next (reply (.badValue k))) ∧
    (∀ k : Byte, sent = .error k ↔
      ¬ WindowFieldOk ((∀ w, d.style ≠ .level w) ∧ d.style ≠ .check) (d.style = .check) (halfAt f.payload 1)
          (halfAt f.payload 3) (byteAt f.payload 5) (byteAt f.payload 6) k.toNat ∧
        ∀ j, j < k.toNat → WindowFieldOk ((∀ w, d.style ≠ .level w) ∧ d.style ≠ .check) (d.style = .check)
          (halfAt f.payload 1) (halfAt f.payload 3) (byteAt f.payload 5) (byteAt f.payload 6) j) ∧
    (∀ window, sent = .ok window → CarriesWindow window (halfAt f.payload 1) (halfAt f.payload 3) (byteAt f.payload 5)
      (byteAt f.payload 6)) ∧
    ∀ window, p.state ≠ .free → p.defn = some d → d.style ≠ .check → sent = .ok window →
      exec .setLimits s = .next { reply (.generation (p.generation + 1)) with
        dueQueue := s.dueQueue.filter fun x => !x.isScheduledOf i
        probes := s.probes.set i { p with
          defn := some { d with style := match d.style, window with
            | .level _, w => .level w
            | .window _, some w => .window w
            | .adaptive _ n, some w => .adaptive w n
            | st, _ => st }
          generation := p.generation + 1
          confirmed := .unknown
          candidate := none
          mode := if p.state = .armed then match d.style with | .adaptive _ n => some (.escalated n) | _ => none
            else p.mode } }

/-- R44, R55: MEASURE on a FREE probe, beside a parked MEASURE of the probe, or with the parked list full is refused;
otherwise it is parked, without a reply, with a ONE_SHOT entry behind the ONE_SHOT entries and ahead of the SCHEDULED. The
number that links the two is the model's (log 8). -/
def Obligations.MeasureParksAndQueuesAOneShot : Prop :=
  ∀ (s : State) (f : Frame) (rest : List Frame) (i : Fin 32), s.Taking .measure f rest → f.names i →
    let p := s.probe i
    let reply : ReplyBody → State := fun body =>
      { s with inbox := rest, replies := s.replies ++ [⟨f.tag, 0x16, body⟩] }
    (p.state = .free → exec .measure s = .next (reply (.wrongState .free))) ∧
    (p.state ≠ .free → (∃ q ∈ s.parked, q.command = .measure i) → exec .measure s = .next (reply .inProgress)) ∧
    (p.state ≠ .free → (∀ q ∈ s.parked, q.command ≠ .measure i) → 4 ≤ s.parked.length →
      exec .measure s = .next (reply .busy)) ∧
    ∀ shots work, p.state ≠ .free → (∀ q ∈ s.parked, q.command ≠ .measure i) → s.parked.length < 4 →
      s.dueQueue = shots ++ work → (∀ x ∈ shots, x.isOneShot = true) → (∀ x ∈ work, x.isOneShot = false) →
      exec .measure s = .next { s with
        inbox := rest
        parked := s.parked ++ [⟨f.tag, .measure i, s.nextLink, .awaited⟩]
        nextLink := s.nextLink + 1
        dueQueue := shots ++ .oneShot ⟨i, s.nextLink⟩ :: work }

/-- R27, R32: RUN in STOPPED and, without awaited PAUSEs, in DRAINING aligns every ARMED probe; in RUNNING it changes
nothing; in DRAINING every awaited PAUSE is answered SUPERSEDED after RUN's reply, in parking order (R164); written out
for one. The number of an outcome that waits is the model's (log 8). -/
def Obligations.RunAlignsEveryArmedProbe : Prop :=
  ∀ (s : State) (f : Frame) (rest : List Frame), s.Taking .run f rest →
    let replied := { s with inbox := rest, replies := s.replies ++ [⟨f.tag, 0x20, .counter s.counter⟩] }
    (s.scheduler = .running → exec .run s = .next replied) ∧
    (s.scheduler ≠ .running → ∃ probes : Vector Probe 32,
      (∀ i : Fin 32, probes[i] = match (s.probe i).state, (s.probe i).defn with
        | .armed, some d => { s.probe i with nextDue := some (align s.counter d.period d.phase) }
        | _, _ => s.probe i) ∧
      let running := { replied with scheduler := .running, probes := probes }
      (s.scheduler = .stopped ∨ (∀ q ∈ s.parked, q.command ≠ .pause) → exec .run s = .next running) ∧
      (s.scheduler = .draining → s.LinksDistinct → exec .run s = .next (running.answerPauses .superseded)) ∧
      ∀ before q after, s.scheduler = .draining → s.parked = before ++ q :: after → q.command = .pause →
        (∀ x ∈ before ++ after, x.command ≠ .pause ∧ x.link ≠ q.link) →
        (s.replies.length + 2 ≤ 8 → exec .run s = .next { running with
          parked := before ++ after, replies := replied.replies ++ [⟨q.tag, 0x21, .superseded⟩] }) ∧
        (s.replies.length + 1 = 8 → exec .run s = .next { running with
          parked := before ++ { q with outcome := .fixed s.nextFix .superseded } :: after
          nextFix := s.nextFix + 1 }))

/-- R28 to R30: PAUSE in STOPPED changes nothing; in RUNNING it stops the scheduler, or parks and drains while a scheduled
operation is in flight, removing every SCHEDULED entry and every next due; in DRAINING it parks; with the parked list full
it is refused BUSY. The link number of the parked entry is the model's (log 8). -/
def Obligations.PauseStopsOrDrains : Prop :=
  ∀ (s : State) (f : Frame) (rest : List Frame), s.Taking .pause f rest →
    let reply : State → ReplyBody → State := fun t body =>
      { t with inbox := rest, replies := s.replies ++ [⟨f.tag, 0x21, body⟩] }
    let parked : State → State := fun t =>
      { t with
        inbox := rest, parked := s.parked ++ [⟨f.tag, .pause, s.nextLink, .awaited⟩], nextLink := s.nextLink + 1 }
    let inFlight := ∃ e op channel, s.engine = .busy ⟨.scheduled e, op, channel⟩
    ∃ probes : Vector Probe 32, (∀ i : Fin 32, probes[i] = { s.probe i with nextDue := none }) ∧
      let left : SchedulerState → State := fun st =>
        { s with scheduler := st, probes := probes, dueQueue := s.dueQueue.filter DueEntry.isOneShot }
      (s.scheduler = .stopped → exec .pause s = .next (reply s (.counter s.counter))) ∧
      (s.scheduler = .running → ¬ inFlight → exec .pause s = .next (reply (left .stopped) (.counter s.counter))) ∧
      (s.scheduler = .running → inFlight → s.parked.length < 4 → exec .pause s = .next (parked (left .draining))) ∧
      (s.scheduler = .running → inFlight → 4 ≤ s.parked.length →
        exec .pause s = .next (reply s (.busyPause .running))) ∧
      (s.scheduler = .draining → s.parked.length < 4 → exec .pause s = .next (parked s)) ∧
      (s.scheduler = .draining → 4 ≤ s.parked.length → exec .pause s = .next (reply s (.busyPause .draining)))

/-- R24: SET_TIME loads the counter in STOPPED, without touching the divider, and is refused otherwise. -/
def Obligations.SetTimeLoadsInStoppedAlone : Prop :=
  ∀ (s : State) (f : Frame) (rest : List Frame) (b0 b1 b2 b3 : Byte), s.Taking .setTime f rest →
    f.payload = [b0, b1, b2, b3] →
    let value : Tick := BitVec.ofNat 32
      (b0.toNat * 16777216 + b1.toNat * 65536 + b2.toNat * 256 + b3.toNat)
    (s.scheduler = .stopped → exec .setTime s = .next { s with
      inbox := rest, counter := value, replies := s.replies ++ [⟨f.tag, 0x22, .counter value⟩] }) ∧
    (s.scheduler ≠ .stopped → exec .setTime s = .next { s with
      inbox := rest, replies := s.replies ++ [⟨f.tag, 0x22, .wrongSchedulerState s.scheduler⟩] })

/-- R103 to R105: READ_HISTORY returns the records at positions skip to skip + count − 1 that exist, and with drain removes
them and every older one, clears the overwritten count, and clears the watermark-reached flag if the fill is then below
the watermark; out of range fields are named in their order. -/
def Obligations.ReadHistoryReturnsAndDrains : Prop :=
  ∀ (s : State) (f : Frame) (rest : List Frame) (i : Fin 32) (d : Definition) (b skip count drain : Byte),
    s.Taking .readHistory f rest → f.names i → f.payload = [b, skip, count, drain] →
    let p := s.probe i
    let n := skip.toNat
    let records := (p.ring.drop n).take count.toNat
    let reply : ReplyBody → State := fun body =>
      { s with inbox := rest, replies := s.replies ++ [⟨f.tag, 0x30, body⟩] }
    let served := reply (.history p.ring.length p.overwritten records)
    let kept := if records = [] then p.ring else p.ring.drop (n + records.length)
    (p.state = .free → exec .readHistory s = .next (reply (.wrongState .free))) ∧
    (p.state ≠ .free → p.defn = some d →
      (63 < n → exec .readHistory s = .next (reply (.badValue 13))) ∧
      (n ≤ 63 → count = 0 ∨ 6 < count.toNat → exec .readHistory s = .next (reply (.badValue 14))) ∧
      (n ≤ 63 → 1 ≤ count.toNat → count.toNat ≤ 6 → 1 < drain.toNat →
        exec .readHistory s = .next (reply (.badValue 15))) ∧
      (n ≤ 63 → 1 ≤ count.toNat → count.toNat ≤ 6 → drain = 0 → exec .readHistory s = .next served) ∧
      (n ≤ 63 → 1 ≤ count.toNat → count.toNat ≤ 6 → drain = 1 → exec .readHistory s = .next { served with
        probes := s.probes.set i { p with
          ring := kept
          overwritten := 0
          watermarkReached := if kept.length < d.watermark then false else p.watermarkReached } }))

/-- R135: ACK removes each listed notice found, whatever its state and class; a number whose notice is not in the queue, or
left it under an earlier number of the list, counts as not found. -/
def Obligations.AckRemovesTheListedNotices : Prop :=
  ∀ (s : State) (f : Frame) (rest : List Frame) (numbers : List Half), s.Taking .ack f rest →
    f.payload = numbers.flatMap bytes16 → (s.notices.map Notice.seq).Nodup →
    let removed := (s.notices.filter fun n => n.seq ∈ numbers).length
    exec .ack s = .next { s with
      inbox := rest
      notices := s.notices.filter fun n => n.seq ∉ numbers
      replies := s.replies ++ [⟨f.tag, 0x40, .acked removed (numbers.length - removed)⟩] }

/-- R123, R91, R141: HOLD replaces the hold set, CHECK_CONFIG and LINK_CONFIG set or read their value; a hold set of a class
above 3 is refused naming field 16, a timeout of 1 to 7 ticks naming field 17. -/
def Obligations.ConfigurationCommands : Prop :=
  ∀ (s : State) (f : Frame) (rest : List Frame),
    let v := byteAt f.payload 0
    let set : ClassSet := ⟨v.getLsbD 0, v.getLsbD 1, v.getLsbD 2, v.getLsbD 3⟩
    let reply : State → ReplyBody → State := fun t body =>
      { t with inbox := rest, replies := s.replies ++ [⟨f.tag, f.kind, body⟩] }
    (s.Taking .hold f rest →
      (v.toNat < 16 → exec .hold s = .next (reply { s with holdSet := set } (.held set s.notices.length))) ∧
      (16 ≤ v.toNat → exec .hold s = .next (reply s (.badValue 16)))) ∧
    (s.Taking .checkConfig f rest →
      (v = 0 → exec .checkConfig s = .next (reply s (.checkConfig s.tolerance s.health))) ∧
      (v ≠ 0 → exec .checkConfig s = .next (reply { s with tolerance := v } (.checkConfig v s.health)))) ∧
    (s.Taking .linkConfig f rest →
      (v = 0 → exec .linkConfig s = .next (reply s (.linkConfig s.ackTimeout f.muteNoted s.rate s.sentCount))) ∧
      (1 ≤ v.toNat → v.toNat ≤ 7 → exec .linkConfig s = .next (reply s (.badValue 17))) ∧
      (8 ≤ v.toNat → exec .linkConfig s = .next
        (reply { s with ackTimeout := v } (.linkConfig v f.muteNoted s.rate s.sentCount))))

/-- R169, R170: READ_COUNTERS reports the five values and then clears them if asked; SOFT_RESET queues its reply and makes
the processor pending. -/
def Obligations.CountersAndSoftReset : Prop :=
  ∀ (s : State) (f : Frame) (rest : List Frame),
    let b := byteAt f.payload 0
    let reply : State → ReplyBody → State := fun t body =>
      { t with inbox := rest, replies := s.replies ++ [⟨f.tag, f.kind, body⟩] }
    (s.Taking .readCounters f rest →
      (b = 0 → exec .readCounters s = .next (reply s (.counters s.counters s.dropped))) ∧
      (b = 1 → exec .readCounters s = .next
        (reply { s with counters := ⟨0, 0, 0, 0⟩, dropped := 0 } (.counters s.counters s.dropped))) ∧
      (1 < b.toNat → exec .readCounters s = .next (reply s (.badValue 18)))) ∧
    (s.Taking .softReset f rest → exec .softReset s = .next (reply { s with softResetPending := true } .softReset))

/-! ### What every step keeps -/

/-- R94: the free count plus the depths of the defined probes stays 512. -/
def Obligations.StepKeepsThePoolBalanced : Prop :=
  ∀ s t : State, s.PoolBalanced → step s = .next t → t.PoolBalanced

/-- R96, R111, R132, R160, R163, R166: no holding place exceeds its capacity. -/
def Obligations.StepKeepsTheCapacities : Prop :=
  ∀ s t : State, s.WithinCapacity → step s = .next t → t.WithinCapacity

/-- R26, R43: the law of the schedule; with it the due queue stays in the order of R44 and R45 (ticks by the model's arrival,
log 8). -/
def Obligations.StepKeepsTheScheduleLaw : Prop :=
  ∀ s t : State, s.ScheduleLawful → step s = .next t → t.ScheduleLawful

/-- R43, R55, R163: the law of the links between one-shots and parked MEASUREs. -/
def Obligations.StepKeepsTheLinkLaw : Prop :=
  ∀ s t : State, s.LinksLawful → step s = .next t → t.LinksLawful

/-- R111, R114, R122: sequence numbers stay distinct, and so do the keys of QUEUED notices. -/
def Obligations.StepKeepsTheNoticeLaw : Prop :=
  ∀ s t : State, s.NoticesLawful → step s = .next t → t.NoticesLawful

/-- R139: retries stay at 4 or less, and 4 only in MUTE. -/
def Obligations.StepKeepsTheRetryLaw : Prop :=
  ∀ s t : State, s.RetriesLawful → step s = .next t → t.RetriesLawful

/-- R72, R77: candidates stay below the settle value, and the adaptive mode within its confirm runs. -/
def Obligations.StepKeepsTheVerdictLaw : Prop :=
  ∀ s t : State, s.VerdictsLawful → step s = .next t → t.VerdictsLawful

/-- R125: ALERT# is asserted while a notice of an unheld class stands in the queue and the part is not held in reset, and
released otherwise; no transmission start and no timeout, with the merging it brings about, changes it. -/
def Obligations.AlertFollowsTheUnheldNotices : Prop :=
  ∀ s : State,
    (s.alertAsserted = true ↔ s.inReset = false ∧ ∃ n ∈ s.notices, s.holdSet.has n.content.cls = false) ∧
    (s.Quiet → ∀ t, exec .noticeTransmissionStart s = .next t → t.alertAsserted = s.alertAsserted) ∧
    (s.Quiet → ∀ t, exec .replyTransmissionStart s = .next t → t.alertAsserted = s.alertAsserted) ∧
    ∀ t, exec .noticeTimeout s = .next t → t.alertAsserted = s.alertAsserted
end

