-- ==== Sys2Proof/Laws/Word.lean ====
section
/-! SUPPORT. The counts that stop at their largest value, and concatenation as numbers. -/

namespace Sys2Proof

theorem satInc_byte (x : Byte) : satInc x = if x = 255 then 255 else x + 1 := by
  unfold satInc; split <;> simp_all

theorem satInc_half (x : Half) : satInc x = if x = 65535 then 65535 else x + 1 := by
  unfold satInc; split <;> simp_all

theorem satInc_word (x : BitVec 32) : satInc x = if x = 4294967295 then 4294967295 else x + 1 := by
  unfold satInc; split <;> simp_all

/-- Adding one and stopping at the largest value. -/
theorem satAdd_one (x : Byte) : satAdd x 1 = if x = 255 then 255 else x + 1 := by
  unfold satAdd
  have h : x.toNat < 256 := x.isLt
  by_cases hx : x = 255
  · subst hx; rfl
  · have : x.toNat ≠ 255 := fun h' => hx (BitVec.eq_of_toNat_eq h')
    rw [if_pos (by simp; omega), if_neg hx]

/-- The value of two fields side by side, the first being the more significant. -/
theorem toNat_append_eq {n m : Nat} (x : BitVec n) (y : BitVec m) : (x ++ y).toNat = x.toNat * 2 ^ m + y.toNat := by
  rw [BitVec.toNat_append, ← Nat.shiftLeft_add_eq_or_of_lt y.isLt, Nat.shiftLeft_eq]

end Sys2Proof
end

