-- ==== Sys2Proof/Laws/State.lean ====
section
/-! SUPPORT. One lemma per field per update of State: what each shared update leaves and what it writes. -/

namespace Sys2Proof.Machine

/-! ### setProbe -/

@[simp] theorem State.setProbe_counter (s : State) (i : Fin 32) (p : Probe) :
    (s.setProbe i p).counter = s.counter := rfl
@[simp] theorem State.setProbe_divider (s : State) (i : Fin 32) (p : Probe) :
    (s.setProbe i p).divider = s.divider := rfl
@[simp] theorem State.setProbe_elapsed (s : State) (i : Fin 32) (p : Probe) :
    (s.setProbe i p).elapsed = s.elapsed := rfl
@[simp] theorem State.setProbe_scheduler (s : State) (i : Fin 32) (p : Probe) :
    (s.setProbe i p).scheduler = s.scheduler := rfl
@[simp] theorem State.setProbe_probes (s : State) (i : Fin 32) (p : Probe) :
    (s.setProbe i p).probes = s.probes.set i p := rfl
@[simp] theorem State.setProbe_freeCount (s : State) (i : Fin 32) (p : Probe) :
    (s.setProbe i p).freeCount = s.freeCount := rfl
@[simp] theorem State.setProbe_dueQueue (s : State) (i : Fin 32) (p : Probe) :
    (s.setProbe i p).dueQueue = s.dueQueue := rfl
@[simp] theorem State.setProbe_engine (s : State) (i : Fin 32) (p : Probe) : (s.setProbe i p).engine = s.engine := rfl
@[simp] theorem State.setProbe_health (s : State) (i : Fin 32) (p : Probe) : (s.setProbe i p).health = s.health := rfl
@[simp] theorem State.setProbe_tolerance (s : State) (i : Fin 32) (p : Probe) :
    (s.setProbe i p).tolerance = s.tolerance := rfl
@[simp] theorem State.setProbe_notices (s : State) (i : Fin 32) (p : Probe) :
    (s.setProbe i p).notices = s.notices := rfl
@[simp] theorem State.setProbe_nextSeq (s : State) (i : Fin 32) (p : Probe) :
    (s.setProbe i p).nextSeq = s.nextSeq := rfl
@[simp] theorem State.setProbe_gapAcc (s : State) (i : Fin 32) (p : Probe) : (s.setProbe i p).gapAcc = s.gapAcc := rfl
@[simp] theorem State.setProbe_holdSet (s : State) (i : Fin 32) (p : Probe) :
    (s.setProbe i p).holdSet = s.holdSet := rfl
@[simp] theorem State.setProbe_dropped (s : State) (i : Fin 32) (p : Probe) :
    (s.setProbe i p).dropped = s.dropped := rfl
@[simp] theorem State.setProbe_receiver (s : State) (i : Fin 32) (p : Probe) :
    (s.setProbe i p).receiver = s.receiver := rfl
@[simp] theorem State.setProbe_transmitter (s : State) (i : Fin 32) (p : Probe) :
    (s.setProbe i p).transmitter = s.transmitter := rfl
@[simp] theorem State.setProbe_mute (s : State) (i : Fin 32) (p : Probe) : (s.setProbe i p).mute = s.mute := rfl
@[simp] theorem State.setProbe_ackTimeout (s : State) (i : Fin 32) (p : Probe) :
    (s.setProbe i p).ackTimeout = s.ackTimeout := rfl
@[simp] theorem State.setProbe_rate (s : State) (i : Fin 32) (p : Probe) : (s.setProbe i p).rate = s.rate := rfl
@[simp] theorem State.setProbe_counters (s : State) (i : Fin 32) (p : Probe) :
    (s.setProbe i p).counters = s.counters := rfl
@[simp] theorem State.setProbe_rxdHigh (s : State) (i : Fin 32) (p : Probe) :
    (s.setProbe i p).rxdHigh = s.rxdHigh := rfl
@[simp] theorem State.setProbe_inbox (s : State) (i : Fin 32) (p : Probe) : (s.setProbe i p).inbox = s.inbox := rfl
@[simp] theorem State.setProbe_parked (s : State) (i : Fin 32) (p : Probe) : (s.setProbe i p).parked = s.parked := rfl
@[simp] theorem State.setProbe_replies (s : State) (i : Fin 32) (p : Probe) :
    (s.setProbe i p).replies = s.replies := rfl
@[simp] theorem State.setProbe_softResetPending (s : State) (i : Fin 32) (p : Probe) :
    (s.setProbe i p).softResetPending = s.softResetPending := rfl
@[simp] theorem State.setProbe_resetCause (s : State) (i : Fin 32) (p : Probe) :
    (s.setProbe i p).resetCause = s.resetCause := rfl
@[simp] theorem State.setProbe_powerReset (s : State) (i : Fin 32) (p : Probe) :
    (s.setProbe i p).powerReset = s.powerReset := rfl
@[simp] theorem State.setProbe_pinReset (s : State) (i : Fin 32) (p : Probe) :
    (s.setProbe i p).pinReset = s.pinReset := rfl
@[simp] theorem State.setProbe_inReset (s : State) (i : Fin 32) (p : Probe) :
    (s.setProbe i p).inReset = s.inReset := rfl
@[simp] theorem State.setProbe_nextLink (s : State) (i : Fin 32) (p : Probe) :
    (s.setProbe i p).nextLink = s.nextLink := rfl
@[simp] theorem State.setProbe_nextFix (s : State) (i : Fin 32) (p : Probe) :
    (s.setProbe i p).nextFix = s.nextFix := rfl
@[simp] theorem State.setProbe_owed (s : State) (i : Fin 32) (p : Probe) : (s.setProbe i p).owed = s.owed := rfl
@[simp] theorem State.setProbe_pending (s : State) (i : Fin 32) (p : Probe) :
    (s.setProbe i p).pending = s.pending := rfl

/-! ### queueScheduled -/

@[simp] theorem State.queueScheduled_counter (s : State) (i : Fin 32) (b : Bool) :
    (s.queueScheduled i b).counter = s.counter := rfl
@[simp] theorem State.queueScheduled_divider (s : State) (i : Fin 32) (b : Bool) :
    (s.queueScheduled i b).divider = s.divider := rfl
@[simp] theorem State.queueScheduled_elapsed (s : State) (i : Fin 32) (b : Bool) :
    (s.queueScheduled i b).elapsed = s.elapsed := rfl
@[simp] theorem State.queueScheduled_scheduler (s : State) (i : Fin 32) (b : Bool) :
    (s.queueScheduled i b).scheduler = s.scheduler := rfl
@[simp] theorem State.queueScheduled_probes (s : State) (i : Fin 32) (b : Bool) :
    (s.queueScheduled i b).probes = s.probes := rfl
@[simp] theorem State.queueScheduled_freeCount (s : State) (i : Fin 32) (b : Bool) :
    (s.queueScheduled i b).freeCount = s.freeCount := rfl
@[simp] theorem State.queueScheduled_engine (s : State) (i : Fin 32) (b : Bool) :
    (s.queueScheduled i b).engine = s.engine := rfl
@[simp] theorem State.queueScheduled_health (s : State) (i : Fin 32) (b : Bool) :
    (s.queueScheduled i b).health = s.health := rfl
@[simp] theorem State.queueScheduled_tolerance (s : State) (i : Fin 32) (b : Bool) :
    (s.queueScheduled i b).tolerance = s.tolerance := rfl
@[simp] theorem State.queueScheduled_notices (s : State) (i : Fin 32) (b : Bool) :
    (s.queueScheduled i b).notices = s.notices := rfl
@[simp] theorem State.queueScheduled_nextSeq (s : State) (i : Fin 32) (b : Bool) :
    (s.queueScheduled i b).nextSeq = s.nextSeq := rfl
@[simp] theorem State.queueScheduled_gapAcc (s : State) (i : Fin 32) (b : Bool) :
    (s.queueScheduled i b).gapAcc = s.gapAcc := rfl
@[simp] theorem State.queueScheduled_holdSet (s : State) (i : Fin 32) (b : Bool) :
    (s.queueScheduled i b).holdSet = s.holdSet := rfl
@[simp] theorem State.queueScheduled_dropped (s : State) (i : Fin 32) (b : Bool) :
    (s.queueScheduled i b).dropped = s.dropped := rfl
@[simp] theorem State.queueScheduled_receiver (s : State) (i : Fin 32) (b : Bool) :
    (s.queueScheduled i b).receiver = s.receiver := rfl
@[simp] theorem State.queueScheduled_transmitter (s : State) (i : Fin 32) (b : Bool) :
    (s.queueScheduled i b).transmitter = s.transmitter := rfl
@[simp] theorem State.queueScheduled_mute (s : State) (i : Fin 32) (b : Bool) :
    (s.queueScheduled i b).mute = s.mute := rfl
@[simp] theorem State.queueScheduled_ackTimeout (s : State) (i : Fin 32) (b : Bool) :
    (s.queueScheduled i b).ackTimeout = s.ackTimeout := rfl
@[simp] theorem State.queueScheduled_rate (s : State) (i : Fin 32) (b : Bool) :
    (s.queueScheduled i b).rate = s.rate := rfl
@[simp] theorem State.queueScheduled_counters (s : State) (i : Fin 32) (b : Bool) :
    (s.queueScheduled i b).counters = s.counters := rfl
@[simp] theorem State.queueScheduled_rxdHigh (s : State) (i : Fin 32) (b : Bool) :
    (s.queueScheduled i b).rxdHigh = s.rxdHigh := rfl
@[simp] theorem State.queueScheduled_inbox (s : State) (i : Fin 32) (b : Bool) :
    (s.queueScheduled i b).inbox = s.inbox := rfl
@[simp] theorem State.queueScheduled_parked (s : State) (i : Fin 32) (b : Bool) :
    (s.queueScheduled i b).parked = s.parked := rfl
@[simp] theorem State.queueScheduled_replies (s : State) (i : Fin 32) (b : Bool) :
    (s.queueScheduled i b).replies = s.replies := rfl
@[simp] theorem State.queueScheduled_softResetPending (s : State) (i : Fin 32) (b : Bool) :
    (s.queueScheduled i b).softResetPending = s.softResetPending := rfl
@[simp] theorem State.queueScheduled_resetCause (s : State) (i : Fin 32) (b : Bool) :
    (s.queueScheduled i b).resetCause = s.resetCause := rfl
@[simp] theorem State.queueScheduled_powerReset (s : State) (i : Fin 32) (b : Bool) :
    (s.queueScheduled i b).powerReset = s.powerReset := rfl
@[simp] theorem State.queueScheduled_pinReset (s : State) (i : Fin 32) (b : Bool) :
    (s.queueScheduled i b).pinReset = s.pinReset := rfl
@[simp] theorem State.queueScheduled_inReset (s : State) (i : Fin 32) (b : Bool) :
    (s.queueScheduled i b).inReset = s.inReset := rfl
@[simp] theorem State.queueScheduled_nextLink (s : State) (i : Fin 32) (b : Bool) :
    (s.queueScheduled i b).nextLink = s.nextLink := rfl
@[simp] theorem State.queueScheduled_nextFix (s : State) (i : Fin 32) (b : Bool) :
    (s.queueScheduled i b).nextFix = s.nextFix := rfl
@[simp] theorem State.queueScheduled_owed (s : State) (i : Fin 32) (b : Bool) :
    (s.queueScheduled i b).owed = s.owed := rfl
@[simp] theorem State.queueScheduled_pending (s : State) (i : Fin 32) (b : Bool) :
    (s.queueScheduled i b).pending = s.pending := rfl

/-! ### queueOneShot -/

@[simp] theorem State.queueOneShot_counter (s : State) (e : OneShotEntry) :
    (s.queueOneShot e).counter = s.counter := rfl
@[simp] theorem State.queueOneShot_divider (s : State) (e : OneShotEntry) :
    (s.queueOneShot e).divider = s.divider := rfl
@[simp] theorem State.queueOneShot_elapsed (s : State) (e : OneShotEntry) :
    (s.queueOneShot e).elapsed = s.elapsed := rfl
@[simp] theorem State.queueOneShot_scheduler (s : State) (e : OneShotEntry) :
    (s.queueOneShot e).scheduler = s.scheduler := rfl
@[simp] theorem State.queueOneShot_probes (s : State) (e : OneShotEntry) : (s.queueOneShot e).probes = s.probes := rfl
@[simp] theorem State.queueOneShot_freeCount (s : State) (e : OneShotEntry) :
    (s.queueOneShot e).freeCount = s.freeCount := rfl
@[simp] theorem State.queueOneShot_engine (s : State) (e : OneShotEntry) : (s.queueOneShot e).engine = s.engine := rfl
@[simp] theorem State.queueOneShot_health (s : State) (e : OneShotEntry) : (s.queueOneShot e).health = s.health := rfl
@[simp] theorem State.queueOneShot_tolerance (s : State) (e : OneShotEntry) :
    (s.queueOneShot e).tolerance = s.tolerance := rfl
@[simp] theorem State.queueOneShot_notices (s : State) (e : OneShotEntry) :
    (s.queueOneShot e).notices = s.notices := rfl
@[simp] theorem State.queueOneShot_nextSeq (s : State) (e : OneShotEntry) :
    (s.queueOneShot e).nextSeq = s.nextSeq := rfl
@[simp] theorem State.queueOneShot_gapAcc (s : State) (e : OneShotEntry) : (s.queueOneShot e).gapAcc = s.gapAcc := rfl
@[simp] theorem State.queueOneShot_holdSet (s : State) (e : OneShotEntry) :
    (s.queueOneShot e).holdSet = s.holdSet := rfl
@[simp] theorem State.queueOneShot_dropped (s : State) (e : OneShotEntry) :
    (s.queueOneShot e).dropped = s.dropped := rfl
@[simp] theorem State.queueOneShot_receiver (s : State) (e : OneShotEntry) :
    (s.queueOneShot e).receiver = s.receiver := rfl
@[simp] theorem State.queueOneShot_transmitter (s : State) (e : OneShotEntry) :
    (s.queueOneShot e).transmitter = s.transmitter := rfl
@[simp] theorem State.queueOneShot_mute (s : State) (e : OneShotEntry) : (s.queueOneShot e).mute = s.mute := rfl
@[simp] theorem State.queueOneShot_ackTimeout (s : State) (e : OneShotEntry) :
    (s.queueOneShot e).ackTimeout = s.ackTimeout := rfl
@[simp] theorem State.queueOneShot_rate (s : State) (e : OneShotEntry) : (s.queueOneShot e).rate = s.rate := rfl
@[simp] theorem State.queueOneShot_counters (s : State) (e : OneShotEntry) :
    (s.queueOneShot e).counters = s.counters := rfl
@[simp] theorem State.queueOneShot_rxdHigh (s : State) (e : OneShotEntry) :
    (s.queueOneShot e).rxdHigh = s.rxdHigh := rfl
@[simp] theorem State.queueOneShot_inbox (s : State) (e : OneShotEntry) : (s.queueOneShot e).inbox = s.inbox := rfl
@[simp] theorem State.queueOneShot_parked (s : State) (e : OneShotEntry) : (s.queueOneShot e).parked = s.parked := rfl
@[simp] theorem State.queueOneShot_replies (s : State) (e : OneShotEntry) :
    (s.queueOneShot e).replies = s.replies := rfl
@[simp] theorem State.queueOneShot_softResetPending (s : State) (e : OneShotEntry) :
    (s.queueOneShot e).softResetPending = s.softResetPending := rfl
@[simp] theorem State.queueOneShot_resetCause (s : State) (e : OneShotEntry) :
    (s.queueOneShot e).resetCause = s.resetCause := rfl
@[simp] theorem State.queueOneShot_powerReset (s : State) (e : OneShotEntry) :
    (s.queueOneShot e).powerReset = s.powerReset := rfl
@[simp] theorem State.queueOneShot_pinReset (s : State) (e : OneShotEntry) :
    (s.queueOneShot e).pinReset = s.pinReset := rfl
@[simp] theorem State.queueOneShot_inReset (s : State) (e : OneShotEntry) :
    (s.queueOneShot e).inReset = s.inReset := rfl
@[simp] theorem State.queueOneShot_nextLink (s : State) (e : OneShotEntry) :
    (s.queueOneShot e).nextLink = s.nextLink := rfl
@[simp] theorem State.queueOneShot_nextFix (s : State) (e : OneShotEntry) :
    (s.queueOneShot e).nextFix = s.nextFix := rfl
@[simp] theorem State.queueOneShot_owed (s : State) (e : OneShotEntry) : (s.queueOneShot e).owed = s.owed := rfl
@[simp] theorem State.queueOneShot_pending (s : State) (e : OneShotEntry) :
    (s.queueOneShot e).pending = s.pending := rfl

/-! ### dropEntries -/

@[simp] theorem State.dropEntries_counter (s : State) (p : DueEntry → Bool) :
    (s.dropEntries p).counter = s.counter := rfl
@[simp] theorem State.dropEntries_divider (s : State) (p : DueEntry → Bool) :
    (s.dropEntries p).divider = s.divider := rfl
@[simp] theorem State.dropEntries_elapsed (s : State) (p : DueEntry → Bool) :
    (s.dropEntries p).elapsed = s.elapsed := rfl
@[simp] theorem State.dropEntries_scheduler (s : State) (p : DueEntry → Bool) :
    (s.dropEntries p).scheduler = s.scheduler := rfl
@[simp] theorem State.dropEntries_probes (s : State) (p : DueEntry → Bool) :
    (s.dropEntries p).probes = s.probes := rfl
@[simp] theorem State.dropEntries_freeCount (s : State) (p : DueEntry → Bool) :
    (s.dropEntries p).freeCount = s.freeCount := rfl
@[simp] theorem State.dropEntries_dueQueue (s : State) (p : DueEntry → Bool) :
    (s.dropEntries p).dueQueue = s.dueQueue.filter fun e => !p e := rfl
@[simp] theorem State.dropEntries_engine (s : State) (p : DueEntry → Bool) :
    (s.dropEntries p).engine = s.engine := rfl
@[simp] theorem State.dropEntries_health (s : State) (p : DueEntry → Bool) :
    (s.dropEntries p).health = s.health := rfl
@[simp] theorem State.dropEntries_tolerance (s : State) (p : DueEntry → Bool) :
    (s.dropEntries p).tolerance = s.tolerance := rfl
@[simp] theorem State.dropEntries_notices (s : State) (p : DueEntry → Bool) :
    (s.dropEntries p).notices = s.notices := rfl
@[simp] theorem State.dropEntries_nextSeq (s : State) (p : DueEntry → Bool) :
    (s.dropEntries p).nextSeq = s.nextSeq := rfl
@[simp] theorem State.dropEntries_gapAcc (s : State) (p : DueEntry → Bool) :
    (s.dropEntries p).gapAcc = s.gapAcc := rfl
@[simp] theorem State.dropEntries_holdSet (s : State) (p : DueEntry → Bool) :
    (s.dropEntries p).holdSet = s.holdSet := rfl
@[simp] theorem State.dropEntries_dropped (s : State) (p : DueEntry → Bool) :
    (s.dropEntries p).dropped = s.dropped := rfl
@[simp] theorem State.dropEntries_receiver (s : State) (p : DueEntry → Bool) :
    (s.dropEntries p).receiver = s.receiver := rfl
@[simp] theorem State.dropEntries_transmitter (s : State) (p : DueEntry → Bool) :
    (s.dropEntries p).transmitter = s.transmitter := rfl
@[simp] theorem State.dropEntries_mute (s : State) (p : DueEntry → Bool) : (s.dropEntries p).mute = s.mute := rfl
@[simp] theorem State.dropEntries_ackTimeout (s : State) (p : DueEntry → Bool) :
    (s.dropEntries p).ackTimeout = s.ackTimeout := rfl
@[simp] theorem State.dropEntries_rate (s : State) (p : DueEntry → Bool) : (s.dropEntries p).rate = s.rate := rfl
@[simp] theorem State.dropEntries_counters (s : State) (p : DueEntry → Bool) :
    (s.dropEntries p).counters = s.counters := rfl
@[simp] theorem State.dropEntries_rxdHigh (s : State) (p : DueEntry → Bool) :
    (s.dropEntries p).rxdHigh = s.rxdHigh := rfl
@[simp] theorem State.dropEntries_inbox (s : State) (p : DueEntry → Bool) : (s.dropEntries p).inbox = s.inbox := rfl
@[simp] theorem State.dropEntries_parked (s : State) (p : DueEntry → Bool) :
    (s.dropEntries p).parked = s.parked := rfl
@[simp] theorem State.dropEntries_replies (s : State) (p : DueEntry → Bool) :
    (s.dropEntries p).replies = s.replies := rfl
@[simp] theorem State.dropEntries_softResetPending (s : State) (p : DueEntry → Bool) :
    (s.dropEntries p).softResetPending = s.softResetPending := rfl
@[simp] theorem State.dropEntries_resetCause (s : State) (p : DueEntry → Bool) :
    (s.dropEntries p).resetCause = s.resetCause := rfl
@[simp] theorem State.dropEntries_powerReset (s : State) (p : DueEntry → Bool) :
    (s.dropEntries p).powerReset = s.powerReset := rfl
@[simp] theorem State.dropEntries_pinReset (s : State) (p : DueEntry → Bool) :
    (s.dropEntries p).pinReset = s.pinReset := rfl
@[simp] theorem State.dropEntries_inReset (s : State) (p : DueEntry → Bool) :
    (s.dropEntries p).inReset = s.inReset := rfl
@[simp] theorem State.dropEntries_nextLink (s : State) (p : DueEntry → Bool) :
    (s.dropEntries p).nextLink = s.nextLink := rfl
@[simp] theorem State.dropEntries_nextFix (s : State) (p : DueEntry → Bool) :
    (s.dropEntries p).nextFix = s.nextFix := rfl
@[simp] theorem State.dropEntries_owed (s : State) (p : DueEntry → Bool) : (s.dropEntries p).owed = s.owed := rfl
@[simp] theorem State.dropEntries_pending (s : State) (p : DueEntry → Bool) :
    (s.dropEntries p).pending = s.pending := rfl

/-! ### queueReply -/

@[simp] theorem State.queueReply_counter (s : State) (r : Reply) : (s.queueReply r).counter = s.counter := rfl
@[simp] theorem State.queueReply_divider (s : State) (r : Reply) : (s.queueReply r).divider = s.divider := rfl
@[simp] theorem State.queueReply_elapsed (s : State) (r : Reply) : (s.queueReply r).elapsed = s.elapsed := rfl
@[simp] theorem State.queueReply_scheduler (s : State) (r : Reply) : (s.queueReply r).scheduler = s.scheduler := rfl
@[simp] theorem State.queueReply_probes (s : State) (r : Reply) : (s.queueReply r).probes = s.probes := rfl
@[simp] theorem State.queueReply_freeCount (s : State) (r : Reply) : (s.queueReply r).freeCount = s.freeCount := rfl
@[simp] theorem State.queueReply_dueQueue (s : State) (r : Reply) : (s.queueReply r).dueQueue = s.dueQueue := rfl
@[simp] theorem State.queueReply_engine (s : State) (r : Reply) : (s.queueReply r).engine = s.engine := rfl
@[simp] theorem State.queueReply_health (s : State) (r : Reply) : (s.queueReply r).health = s.health := rfl
@[simp] theorem State.queueReply_tolerance (s : State) (r : Reply) : (s.queueReply r).tolerance = s.tolerance := rfl
@[simp] theorem State.queueReply_notices (s : State) (r : Reply) : (s.queueReply r).notices = s.notices := rfl
@[simp] theorem State.queueReply_nextSeq (s : State) (r : Reply) : (s.queueReply r).nextSeq = s.nextSeq := rfl
@[simp] theorem State.queueReply_gapAcc (s : State) (r : Reply) : (s.queueReply r).gapAcc = s.gapAcc := rfl
@[simp] theorem State.queueReply_holdSet (s : State) (r : Reply) : (s.queueReply r).holdSet = s.holdSet := rfl
@[simp] theorem State.queueReply_dropped (s : State) (r : Reply) : (s.queueReply r).dropped = s.dropped := rfl
@[simp] theorem State.queueReply_receiver (s : State) (r : Reply) : (s.queueReply r).receiver = s.receiver := rfl
@[simp] theorem State.queueReply_transmitter (s : State) (r : Reply) :
    (s.queueReply r).transmitter = s.transmitter := rfl
@[simp] theorem State.queueReply_mute (s : State) (r : Reply) : (s.queueReply r).mute = s.mute := rfl
@[simp] theorem State.queueReply_ackTimeout (s : State) (r : Reply) :
    (s.queueReply r).ackTimeout = s.ackTimeout := rfl
@[simp] theorem State.queueReply_rate (s : State) (r : Reply) : (s.queueReply r).rate = s.rate := rfl
@[simp] theorem State.queueReply_counters (s : State) (r : Reply) : (s.queueReply r).counters = s.counters := rfl
@[simp] theorem State.queueReply_rxdHigh (s : State) (r : Reply) : (s.queueReply r).rxdHigh = s.rxdHigh := rfl
@[simp] theorem State.queueReply_inbox (s : State) (r : Reply) : (s.queueReply r).inbox = s.inbox := rfl
@[simp] theorem State.queueReply_parked (s : State) (r : Reply) : (s.queueReply r).parked = s.parked := rfl
@[simp] theorem State.queueReply_replies (s : State) (r : Reply) : (s.queueReply r).replies = s.replies ++ [r] := rfl
@[simp] theorem State.queueReply_softResetPending (s : State) (r : Reply) :
    (s.queueReply r).softResetPending = s.softResetPending := rfl
@[simp] theorem State.queueReply_resetCause (s : State) (r : Reply) :
    (s.queueReply r).resetCause = s.resetCause := rfl
@[simp] theorem State.queueReply_powerReset (s : State) (r : Reply) : (s.queueReply r).powerReset = s.powerReset := rfl
@[simp] theorem State.queueReply_pinReset (s : State) (r : Reply) : (s.queueReply r).pinReset = s.pinReset := rfl
@[simp] theorem State.queueReply_inReset (s : State) (r : Reply) : (s.queueReply r).inReset = s.inReset := rfl
@[simp] theorem State.queueReply_nextLink (s : State) (r : Reply) : (s.queueReply r).nextLink = s.nextLink := rfl
@[simp] theorem State.queueReply_nextFix (s : State) (r : Reply) : (s.queueReply r).nextFix = s.nextFix := rfl
@[simp] theorem State.queueReply_owed (s : State) (r : Reply) : (s.queueReply r).owed = s.owed := rfl
@[simp] theorem State.queueReply_pending (s : State) (r : Reply) : (s.queueReply r).pending = s.pending := rfl

/-! ### answer -/

@[simp] theorem State.answer_counter (s : State) (f : Frame) (b : ReplyBody) :
    (s.answer f b).counter = s.counter := rfl
@[simp] theorem State.answer_divider (s : State) (f : Frame) (b : ReplyBody) :
    (s.answer f b).divider = s.divider := rfl
@[simp] theorem State.answer_elapsed (s : State) (f : Frame) (b : ReplyBody) :
    (s.answer f b).elapsed = s.elapsed := rfl
@[simp] theorem State.answer_scheduler (s : State) (f : Frame) (b : ReplyBody) :
    (s.answer f b).scheduler = s.scheduler := rfl
@[simp] theorem State.answer_probes (s : State) (f : Frame) (b : ReplyBody) : (s.answer f b).probes = s.probes := rfl
@[simp] theorem State.answer_freeCount (s : State) (f : Frame) (b : ReplyBody) :
    (s.answer f b).freeCount = s.freeCount := rfl
@[simp] theorem State.answer_dueQueue (s : State) (f : Frame) (b : ReplyBody) :
    (s.answer f b).dueQueue = s.dueQueue := rfl
@[simp] theorem State.answer_engine (s : State) (f : Frame) (b : ReplyBody) : (s.answer f b).engine = s.engine := rfl
@[simp] theorem State.answer_health (s : State) (f : Frame) (b : ReplyBody) : (s.answer f b).health = s.health := rfl
@[simp] theorem State.answer_tolerance (s : State) (f : Frame) (b : ReplyBody) :
    (s.answer f b).tolerance = s.tolerance := rfl
@[simp] theorem State.answer_notices (s : State) (f : Frame) (b : ReplyBody) :
    (s.answer f b).notices = s.notices := rfl
@[simp] theorem State.answer_nextSeq (s : State) (f : Frame) (b : ReplyBody) :
    (s.answer f b).nextSeq = s.nextSeq := rfl
@[simp] theorem State.answer_gapAcc (s : State) (f : Frame) (b : ReplyBody) : (s.answer f b).gapAcc = s.gapAcc := rfl
@[simp] theorem State.answer_holdSet (s : State) (f : Frame) (b : ReplyBody) :
    (s.answer f b).holdSet = s.holdSet := rfl
@[simp] theorem State.answer_dropped (s : State) (f : Frame) (b : ReplyBody) :
    (s.answer f b).dropped = s.dropped := rfl
@[simp] theorem State.answer_receiver (s : State) (f : Frame) (b : ReplyBody) :
    (s.answer f b).receiver = s.receiver := rfl
@[simp] theorem State.answer_transmitter (s : State) (f : Frame) (b : ReplyBody) :
    (s.answer f b).transmitter = s.transmitter := rfl
@[simp] theorem State.answer_mute (s : State) (f : Frame) (b : ReplyBody) : (s.answer f b).mute = s.mute := rfl
@[simp] theorem State.answer_ackTimeout (s : State) (f : Frame) (b : ReplyBody) :
    (s.answer f b).ackTimeout = s.ackTimeout := rfl
@[simp] theorem State.answer_rate (s : State) (f : Frame) (b : ReplyBody) : (s.answer f b).rate = s.rate := rfl
@[simp] theorem State.answer_counters (s : State) (f : Frame) (b : ReplyBody) :
    (s.answer f b).counters = s.counters := rfl
@[simp] theorem State.answer_rxdHigh (s : State) (f : Frame) (b : ReplyBody) :
    (s.answer f b).rxdHigh = s.rxdHigh := rfl
@[simp] theorem State.answer_inbox (s : State) (f : Frame) (b : ReplyBody) : (s.answer f b).inbox = s.inbox := rfl
@[simp] theorem State.answer_parked (s : State) (f : Frame) (b : ReplyBody) : (s.answer f b).parked = s.parked := rfl
@[simp] theorem State.answer_replies (s : State) (f : Frame) (b : ReplyBody) :
    (s.answer f b).replies = s.replies ++ [⟨f.tag, f.kind, b⟩] := rfl
@[simp] theorem State.answer_softResetPending (s : State) (f : Frame) (b : ReplyBody) :
    (s.answer f b).softResetPending = s.softResetPending := rfl
@[simp] theorem State.answer_resetCause (s : State) (f : Frame) (b : ReplyBody) :
    (s.answer f b).resetCause = s.resetCause := rfl
@[simp] theorem State.answer_powerReset (s : State) (f : Frame) (b : ReplyBody) :
    (s.answer f b).powerReset = s.powerReset := rfl
@[simp] theorem State.answer_pinReset (s : State) (f : Frame) (b : ReplyBody) :
    (s.answer f b).pinReset = s.pinReset := rfl
@[simp] theorem State.answer_inReset (s : State) (f : Frame) (b : ReplyBody) :
    (s.answer f b).inReset = s.inReset := rfl
@[simp] theorem State.answer_nextLink (s : State) (f : Frame) (b : ReplyBody) :
    (s.answer f b).nextLink = s.nextLink := rfl
@[simp] theorem State.answer_nextFix (s : State) (f : Frame) (b : ReplyBody) :
    (s.answer f b).nextFix = s.nextFix := rfl
@[simp] theorem State.answer_owed (s : State) (f : Frame) (b : ReplyBody) : (s.answer f b).owed = s.owed := rfl
@[simp] theorem State.answer_pending (s : State) (f : Frame) (b : ReplyBody) :
    (s.answer f b).pending = s.pending := rfl

/-! ### park -/

@[simp] theorem State.park_counter (s : State) (t : Byte) (c : ParkedCommand) :
    (s.park t c).counter = s.counter := rfl
@[simp] theorem State.park_divider (s : State) (t : Byte) (c : ParkedCommand) :
    (s.park t c).divider = s.divider := rfl
@[simp] theorem State.park_elapsed (s : State) (t : Byte) (c : ParkedCommand) :
    (s.park t c).elapsed = s.elapsed := rfl
@[simp] theorem State.park_scheduler (s : State) (t : Byte) (c : ParkedCommand) :
    (s.park t c).scheduler = s.scheduler := rfl
@[simp] theorem State.park_probes (s : State) (t : Byte) (c : ParkedCommand) : (s.park t c).probes = s.probes := rfl
@[simp] theorem State.park_freeCount (s : State) (t : Byte) (c : ParkedCommand) :
    (s.park t c).freeCount = s.freeCount := rfl
@[simp] theorem State.park_dueQueue (s : State) (t : Byte) (c : ParkedCommand) :
    (s.park t c).dueQueue = s.dueQueue := rfl
@[simp] theorem State.park_engine (s : State) (t : Byte) (c : ParkedCommand) : (s.park t c).engine = s.engine := rfl
@[simp] theorem State.park_health (s : State) (t : Byte) (c : ParkedCommand) : (s.park t c).health = s.health := rfl
@[simp] theorem State.park_tolerance (s : State) (t : Byte) (c : ParkedCommand) :
    (s.park t c).tolerance = s.tolerance := rfl
@[simp] theorem State.park_notices (s : State) (t : Byte) (c : ParkedCommand) :
    (s.park t c).notices = s.notices := rfl
@[simp] theorem State.park_nextSeq (s : State) (t : Byte) (c : ParkedCommand) :
    (s.park t c).nextSeq = s.nextSeq := rfl
@[simp] theorem State.park_gapAcc (s : State) (t : Byte) (c : ParkedCommand) : (s.park t c).gapAcc = s.gapAcc := rfl
@[simp] theorem State.park_holdSet (s : State) (t : Byte) (c : ParkedCommand) :
    (s.park t c).holdSet = s.holdSet := rfl
@[simp] theorem State.park_dropped (s : State) (t : Byte) (c : ParkedCommand) :
    (s.park t c).dropped = s.dropped := rfl
@[simp] theorem State.park_receiver (s : State) (t : Byte) (c : ParkedCommand) :
    (s.park t c).receiver = s.receiver := rfl
@[simp] theorem State.park_transmitter (s : State) (t : Byte) (c : ParkedCommand) :
    (s.park t c).transmitter = s.transmitter := rfl
@[simp] theorem State.park_mute (s : State) (t : Byte) (c : ParkedCommand) : (s.park t c).mute = s.mute := rfl
@[simp] theorem State.park_ackTimeout (s : State) (t : Byte) (c : ParkedCommand) :
    (s.park t c).ackTimeout = s.ackTimeout := rfl
@[simp] theorem State.park_rate (s : State) (t : Byte) (c : ParkedCommand) : (s.park t c).rate = s.rate := rfl
@[simp] theorem State.park_counters (s : State) (t : Byte) (c : ParkedCommand) :
    (s.park t c).counters = s.counters := rfl
@[simp] theorem State.park_rxdHigh (s : State) (t : Byte) (c : ParkedCommand) :
    (s.park t c).rxdHigh = s.rxdHigh := rfl
@[simp] theorem State.park_inbox (s : State) (t : Byte) (c : ParkedCommand) : (s.park t c).inbox = s.inbox := rfl
@[simp] theorem State.park_parked (s : State) (t : Byte) (c : ParkedCommand) :
    (s.park t c).parked = s.parked ++ [⟨t, c, s.nextLink, .awaited⟩] := rfl
@[simp] theorem State.park_replies (s : State) (t : Byte) (c : ParkedCommand) :
    (s.park t c).replies = s.replies := rfl
@[simp] theorem State.park_softResetPending (s : State) (t : Byte) (c : ParkedCommand) :
    (s.park t c).softResetPending = s.softResetPending := rfl
@[simp] theorem State.park_resetCause (s : State) (t : Byte) (c : ParkedCommand) :
    (s.park t c).resetCause = s.resetCause := rfl
@[simp] theorem State.park_powerReset (s : State) (t : Byte) (c : ParkedCommand) :
    (s.park t c).powerReset = s.powerReset := rfl
@[simp] theorem State.park_pinReset (s : State) (t : Byte) (c : ParkedCommand) :
    (s.park t c).pinReset = s.pinReset := rfl
@[simp] theorem State.park_inReset (s : State) (t : Byte) (c : ParkedCommand) :
    (s.park t c).inReset = s.inReset := rfl
@[simp] theorem State.park_nextLink (s : State) (t : Byte) (c : ParkedCommand) :
    (s.park t c).nextLink = s.nextLink + 1 := rfl
@[simp] theorem State.park_nextFix (s : State) (t : Byte) (c : ParkedCommand) :
    (s.park t c).nextFix = s.nextFix := rfl
@[simp] theorem State.park_owed (s : State) (t : Byte) (c : ParkedCommand) : (s.park t c).owed = s.owed := rfl
@[simp] theorem State.park_pending (s : State) (t : Byte) (c : ParkedCommand) :
    (s.park t c).pending = s.pending := rfl

/-! ### unpark -/

@[simp] theorem State.unpark_counter (s : State) (l : Nat) : (s.unpark l).counter = s.counter := rfl
@[simp] theorem State.unpark_divider (s : State) (l : Nat) : (s.unpark l).divider = s.divider := rfl
@[simp] theorem State.unpark_elapsed (s : State) (l : Nat) : (s.unpark l).elapsed = s.elapsed := rfl
@[simp] theorem State.unpark_scheduler (s : State) (l : Nat) : (s.unpark l).scheduler = s.scheduler := rfl
@[simp] theorem State.unpark_probes (s : State) (l : Nat) : (s.unpark l).probes = s.probes := rfl
@[simp] theorem State.unpark_freeCount (s : State) (l : Nat) : (s.unpark l).freeCount = s.freeCount := rfl
@[simp] theorem State.unpark_dueQueue (s : State) (l : Nat) : (s.unpark l).dueQueue = s.dueQueue := rfl
@[simp] theorem State.unpark_engine (s : State) (l : Nat) : (s.unpark l).engine = s.engine := rfl
@[simp] theorem State.unpark_health (s : State) (l : Nat) : (s.unpark l).health = s.health := rfl
@[simp] theorem State.unpark_tolerance (s : State) (l : Nat) : (s.unpark l).tolerance = s.tolerance := rfl
@[simp] theorem State.unpark_notices (s : State) (l : Nat) : (s.unpark l).notices = s.notices := rfl
@[simp] theorem State.unpark_nextSeq (s : State) (l : Nat) : (s.unpark l).nextSeq = s.nextSeq := rfl
@[simp] theorem State.unpark_gapAcc (s : State) (l : Nat) : (s.unpark l).gapAcc = s.gapAcc := rfl
@[simp] theorem State.unpark_holdSet (s : State) (l : Nat) : (s.unpark l).holdSet = s.holdSet := rfl
@[simp] theorem State.unpark_dropped (s : State) (l : Nat) : (s.unpark l).dropped = s.dropped := rfl
@[simp] theorem State.unpark_receiver (s : State) (l : Nat) : (s.unpark l).receiver = s.receiver := rfl
@[simp] theorem State.unpark_transmitter (s : State) (l : Nat) : (s.unpark l).transmitter = s.transmitter := rfl
@[simp] theorem State.unpark_mute (s : State) (l : Nat) : (s.unpark l).mute = s.mute := rfl
@[simp] theorem State.unpark_ackTimeout (s : State) (l : Nat) : (s.unpark l).ackTimeout = s.ackTimeout := rfl
@[simp] theorem State.unpark_rate (s : State) (l : Nat) : (s.unpark l).rate = s.rate := rfl
@[simp] theorem State.unpark_counters (s : State) (l : Nat) : (s.unpark l).counters = s.counters := rfl
@[simp] theorem State.unpark_rxdHigh (s : State) (l : Nat) : (s.unpark l).rxdHigh = s.rxdHigh := rfl
@[simp] theorem State.unpark_inbox (s : State) (l : Nat) : (s.unpark l).inbox = s.inbox := rfl
@[simp] theorem State.unpark_parked (s : State) (l : Nat) :
    (s.unpark l).parked = s.parked.filter fun e => e.link ≠ l := rfl
@[simp] theorem State.unpark_replies (s : State) (l : Nat) : (s.unpark l).replies = s.replies := rfl
@[simp] theorem State.unpark_softResetPending (s : State) (l : Nat) :
    (s.unpark l).softResetPending = s.softResetPending := rfl
@[simp] theorem State.unpark_resetCause (s : State) (l : Nat) : (s.unpark l).resetCause = s.resetCause := rfl
@[simp] theorem State.unpark_powerReset (s : State) (l : Nat) : (s.unpark l).powerReset = s.powerReset := rfl
@[simp] theorem State.unpark_pinReset (s : State) (l : Nat) : (s.unpark l).pinReset = s.pinReset := rfl
@[simp] theorem State.unpark_inReset (s : State) (l : Nat) : (s.unpark l).inReset = s.inReset := rfl
@[simp] theorem State.unpark_nextLink (s : State) (l : Nat) : (s.unpark l).nextLink = s.nextLink := rfl
@[simp] theorem State.unpark_nextFix (s : State) (l : Nat) : (s.unpark l).nextFix = s.nextFix := rfl
@[simp] theorem State.unpark_owed (s : State) (l : Nat) : (s.unpark l).owed = s.owed := rfl
@[simp] theorem State.unpark_pending (s : State) (l : Nat) : (s.unpark l).pending = s.pending := rfl

/-! ### markFixed -/

@[simp] theorem State.markFixed_counter (s : State) (l : Nat) (b : ReplyBody) :
    (s.markFixed l b).counter = s.counter := rfl
@[simp] theorem State.markFixed_divider (s : State) (l : Nat) (b : ReplyBody) :
    (s.markFixed l b).divider = s.divider := rfl
@[simp] theorem State.markFixed_elapsed (s : State) (l : Nat) (b : ReplyBody) :
    (s.markFixed l b).elapsed = s.elapsed := rfl
@[simp] theorem State.markFixed_scheduler (s : State) (l : Nat) (b : ReplyBody) :
    (s.markFixed l b).scheduler = s.scheduler := rfl
@[simp] theorem State.markFixed_probes (s : State) (l : Nat) (b : ReplyBody) :
    (s.markFixed l b).probes = s.probes := rfl
@[simp] theorem State.markFixed_freeCount (s : State) (l : Nat) (b : ReplyBody) :
    (s.markFixed l b).freeCount = s.freeCount := rfl
@[simp] theorem State.markFixed_dueQueue (s : State) (l : Nat) (b : ReplyBody) :
    (s.markFixed l b).dueQueue = s.dueQueue := rfl
@[simp] theorem State.markFixed_engine (s : State) (l : Nat) (b : ReplyBody) :
    (s.markFixed l b).engine = s.engine := rfl
@[simp] theorem State.markFixed_health (s : State) (l : Nat) (b : ReplyBody) :
    (s.markFixed l b).health = s.health := rfl
@[simp] theorem State.markFixed_tolerance (s : State) (l : Nat) (b : ReplyBody) :
    (s.markFixed l b).tolerance = s.tolerance := rfl
@[simp] theorem State.markFixed_notices (s : State) (l : Nat) (b : ReplyBody) :
    (s.markFixed l b).notices = s.notices := rfl
@[simp] theorem State.markFixed_nextSeq (s : State) (l : Nat) (b : ReplyBody) :
    (s.markFixed l b).nextSeq = s.nextSeq := rfl
@[simp] theorem State.markFixed_gapAcc (s : State) (l : Nat) (b : ReplyBody) :
    (s.markFixed l b).gapAcc = s.gapAcc := rfl
@[simp] theorem State.markFixed_holdSet (s : State) (l : Nat) (b : ReplyBody) :
    (s.markFixed l b).holdSet = s.holdSet := rfl
@[simp] theorem State.markFixed_dropped (s : State) (l : Nat) (b : ReplyBody) :
    (s.markFixed l b).dropped = s.dropped := rfl
@[simp] theorem State.markFixed_receiver (s : State) (l : Nat) (b : ReplyBody) :
    (s.markFixed l b).receiver = s.receiver := rfl
@[simp] theorem State.markFixed_transmitter (s : State) (l : Nat) (b : ReplyBody) :
    (s.markFixed l b).transmitter = s.transmitter := rfl
@[simp] theorem State.markFixed_mute (s : State) (l : Nat) (b : ReplyBody) : (s.markFixed l b).mute = s.mute := rfl
@[simp] theorem State.markFixed_ackTimeout (s : State) (l : Nat) (b : ReplyBody) :
    (s.markFixed l b).ackTimeout = s.ackTimeout := rfl
@[simp] theorem State.markFixed_rate (s : State) (l : Nat) (b : ReplyBody) : (s.markFixed l b).rate = s.rate := rfl
@[simp] theorem State.markFixed_counters (s : State) (l : Nat) (b : ReplyBody) :
    (s.markFixed l b).counters = s.counters := rfl
@[simp] theorem State.markFixed_rxdHigh (s : State) (l : Nat) (b : ReplyBody) :
    (s.markFixed l b).rxdHigh = s.rxdHigh := rfl
@[simp] theorem State.markFixed_inbox (s : State) (l : Nat) (b : ReplyBody) : (s.markFixed l b).inbox = s.inbox := rfl
@[simp] theorem State.markFixed_replies (s : State) (l : Nat) (b : ReplyBody) :
    (s.markFixed l b).replies = s.replies := rfl
@[simp] theorem State.markFixed_softResetPending (s : State) (l : Nat) (b : ReplyBody) :
    (s.markFixed l b).softResetPending = s.softResetPending := rfl
@[simp] theorem State.markFixed_resetCause (s : State) (l : Nat) (b : ReplyBody) :
    (s.markFixed l b).resetCause = s.resetCause := rfl
@[simp] theorem State.markFixed_powerReset (s : State) (l : Nat) (b : ReplyBody) :
    (s.markFixed l b).powerReset = s.powerReset := rfl
@[simp] theorem State.markFixed_pinReset (s : State) (l : Nat) (b : ReplyBody) :
    (s.markFixed l b).pinReset = s.pinReset := rfl
@[simp] theorem State.markFixed_inReset (s : State) (l : Nat) (b : ReplyBody) :
    (s.markFixed l b).inReset = s.inReset := rfl
@[simp] theorem State.markFixed_nextLink (s : State) (l : Nat) (b : ReplyBody) :
    (s.markFixed l b).nextLink = s.nextLink := rfl
@[simp] theorem State.markFixed_nextFix (s : State) (l : Nat) (b : ReplyBody) :
    (s.markFixed l b).nextFix = s.nextFix + 1 := rfl
@[simp] theorem State.markFixed_owed (s : State) (l : Nat) (b : ReplyBody) : (s.markFixed l b).owed = s.owed := rfl
@[simp] theorem State.markFixed_pending (s : State) (l : Nat) (b : ReplyBody) :
    (s.markFixed l b).pending = s.pending := rfl

/-! ### appendNotice -/

@[simp] theorem State.appendNotice_counter (s : State) (c : NoticeContent) :
    (s.appendNotice c).counter = s.counter := rfl
@[simp] theorem State.appendNotice_divider (s : State) (c : NoticeContent) :
    (s.appendNotice c).divider = s.divider := rfl
@[simp] theorem State.appendNotice_elapsed (s : State) (c : NoticeContent) :
    (s.appendNotice c).elapsed = s.elapsed := rfl
@[simp] theorem State.appendNotice_scheduler (s : State) (c : NoticeContent) :
    (s.appendNotice c).scheduler = s.scheduler := rfl
@[simp] theorem State.appendNotice_probes (s : State) (c : NoticeContent) :
    (s.appendNotice c).probes = s.probes := rfl
@[simp] theorem State.appendNotice_freeCount (s : State) (c : NoticeContent) :
    (s.appendNotice c).freeCount = s.freeCount := rfl
@[simp] theorem State.appendNotice_dueQueue (s : State) (c : NoticeContent) :
    (s.appendNotice c).dueQueue = s.dueQueue := rfl
@[simp] theorem State.appendNotice_engine (s : State) (c : NoticeContent) :
    (s.appendNotice c).engine = s.engine := rfl
@[simp] theorem State.appendNotice_health (s : State) (c : NoticeContent) :
    (s.appendNotice c).health = s.health := rfl
@[simp] theorem State.appendNotice_tolerance (s : State) (c : NoticeContent) :
    (s.appendNotice c).tolerance = s.tolerance := rfl
@[simp] theorem State.appendNotice_notices (s : State) (c : NoticeContent) :
    (s.appendNotice c).notices = s.notices ++ [⟨s.assignSeq, c, s.counter, s.gapAcc, .queued, 0⟩] := rfl
@[simp] theorem State.appendNotice_nextSeq (s : State) (c : NoticeContent) :
    (s.appendNotice c).nextSeq = s.assignSeq + 1 := rfl
@[simp] theorem State.appendNotice_gapAcc (s : State) (c : NoticeContent) : (s.appendNotice c).gapAcc = 0 := rfl
@[simp] theorem State.appendNotice_holdSet (s : State) (c : NoticeContent) :
    (s.appendNotice c).holdSet = s.holdSet := rfl
@[simp] theorem State.appendNotice_dropped (s : State) (c : NoticeContent) :
    (s.appendNotice c).dropped = s.dropped := rfl
@[simp] theorem State.appendNotice_receiver (s : State) (c : NoticeContent) :
    (s.appendNotice c).receiver = s.receiver := rfl
@[simp] theorem State.appendNotice_transmitter (s : State) (c : NoticeContent) :
    (s.appendNotice c).transmitter = s.transmitter := rfl
@[simp] theorem State.appendNotice_mute (s : State) (c : NoticeContent) : (s.appendNotice c).mute = s.mute := rfl
@[simp] theorem State.appendNotice_ackTimeout (s : State) (c : NoticeContent) :
    (s.appendNotice c).ackTimeout = s.ackTimeout := rfl
@[simp] theorem State.appendNotice_rate (s : State) (c : NoticeContent) : (s.appendNotice c).rate = s.rate := rfl
@[simp] theorem State.appendNotice_counters (s : State) (c : NoticeContent) :
    (s.appendNotice c).counters = s.counters := rfl
@[simp] theorem State.appendNotice_rxdHigh (s : State) (c : NoticeContent) :
    (s.appendNotice c).rxdHigh = s.rxdHigh := rfl
@[simp] theorem State.appendNotice_inbox (s : State) (c : NoticeContent) : (s.appendNotice c).inbox = s.inbox := rfl
@[simp] theorem State.appendNotice_parked (s : State) (c : NoticeContent) :
    (s.appendNotice c).parked = s.parked := rfl
@[simp] theorem State.appendNotice_replies (s : State) (c : NoticeContent) :
    (s.appendNotice c).replies = s.replies := rfl
@[simp] theorem State.appendNotice_softResetPending (s : State) (c : NoticeContent) :
    (s.appendNotice c).softResetPending = s.softResetPending := rfl
@[simp] theorem State.appendNotice_resetCause (s : State) (c : NoticeContent) :
    (s.appendNotice c).resetCause = s.resetCause := rfl
@[simp] theorem State.appendNotice_powerReset (s : State) (c : NoticeContent) :
    (s.appendNotice c).powerReset = s.powerReset := rfl
@[simp] theorem State.appendNotice_pinReset (s : State) (c : NoticeContent) :
    (s.appendNotice c).pinReset = s.pinReset := rfl
@[simp] theorem State.appendNotice_inReset (s : State) (c : NoticeContent) :
    (s.appendNotice c).inReset = s.inReset := rfl
@[simp] theorem State.appendNotice_nextLink (s : State) (c : NoticeContent) :
    (s.appendNotice c).nextLink = s.nextLink := rfl
@[simp] theorem State.appendNotice_nextFix (s : State) (c : NoticeContent) :
    (s.appendNotice c).nextFix = s.nextFix := rfl
@[simp] theorem State.appendNotice_owed (s : State) (c : NoticeContent) : (s.appendNotice c).owed = s.owed := rfl
@[simp] theorem State.appendNotice_pending (s : State) (c : NoticeContent) :
    (s.appendNotice c).pending = s.pending := rfl

/-! ### countLoss -/

@[simp] theorem State.countLoss_counter (s : State) : (s.countLoss).counter = s.counter := rfl
@[simp] theorem State.countLoss_divider (s : State) : (s.countLoss).divider = s.divider := rfl
@[simp] theorem State.countLoss_elapsed (s : State) : (s.countLoss).elapsed = s.elapsed := rfl
@[simp] theorem State.countLoss_scheduler (s : State) : (s.countLoss).scheduler = s.scheduler := rfl
@[simp] theorem State.countLoss_probes (s : State) : (s.countLoss).probes = s.probes := rfl
@[simp] theorem State.countLoss_freeCount (s : State) : (s.countLoss).freeCount = s.freeCount := rfl
@[simp] theorem State.countLoss_dueQueue (s : State) : (s.countLoss).dueQueue = s.dueQueue := rfl
@[simp] theorem State.countLoss_engine (s : State) : (s.countLoss).engine = s.engine := rfl
@[simp] theorem State.countLoss_health (s : State) : (s.countLoss).health = s.health := rfl
@[simp] theorem State.countLoss_tolerance (s : State) : (s.countLoss).tolerance = s.tolerance := rfl
@[simp] theorem State.countLoss_notices (s : State) : (s.countLoss).notices = s.notices := rfl
@[simp] theorem State.countLoss_nextSeq (s : State) : (s.countLoss).nextSeq = s.nextSeq := rfl
@[simp] theorem State.countLoss_gapAcc (s : State) : (s.countLoss).gapAcc = satInc s.gapAcc := rfl
@[simp] theorem State.countLoss_holdSet (s : State) : (s.countLoss).holdSet = s.holdSet := rfl
@[simp] theorem State.countLoss_dropped (s : State) : (s.countLoss).dropped = satInc s.dropped := rfl
@[simp] theorem State.countLoss_receiver (s : State) : (s.countLoss).receiver = s.receiver := rfl
@[simp] theorem State.countLoss_transmitter (s : State) : (s.countLoss).transmitter = s.transmitter := rfl
@[simp] theorem State.countLoss_mute (s : State) : (s.countLoss).mute = s.mute := rfl
@[simp] theorem State.countLoss_ackTimeout (s : State) : (s.countLoss).ackTimeout = s.ackTimeout := rfl
@[simp] theorem State.countLoss_rate (s : State) : (s.countLoss).rate = s.rate := rfl
@[simp] theorem State.countLoss_counters (s : State) : (s.countLoss).counters = s.counters := rfl
@[simp] theorem State.countLoss_rxdHigh (s : State) : (s.countLoss).rxdHigh = s.rxdHigh := rfl
@[simp] theorem State.countLoss_inbox (s : State) : (s.countLoss).inbox = s.inbox := rfl
@[simp] theorem State.countLoss_parked (s : State) : (s.countLoss).parked = s.parked := rfl
@[simp] theorem State.countLoss_replies (s : State) : (s.countLoss).replies = s.replies := rfl
@[simp] theorem State.countLoss_softResetPending (s : State) :
    (s.countLoss).softResetPending = s.softResetPending := rfl
@[simp] theorem State.countLoss_resetCause (s : State) : (s.countLoss).resetCause = s.resetCause := rfl
@[simp] theorem State.countLoss_powerReset (s : State) : (s.countLoss).powerReset = s.powerReset := rfl
@[simp] theorem State.countLoss_pinReset (s : State) : (s.countLoss).pinReset = s.pinReset := rfl
@[simp] theorem State.countLoss_inReset (s : State) : (s.countLoss).inReset = s.inReset := rfl
@[simp] theorem State.countLoss_nextLink (s : State) : (s.countLoss).nextLink = s.nextLink := rfl
@[simp] theorem State.countLoss_nextFix (s : State) : (s.countLoss).nextFix = s.nextFix := rfl
@[simp] theorem State.countLoss_owed (s : State) : (s.countLoss).owed = s.owed := rfl
@[simp] theorem State.countLoss_pending (s : State) : (s.countLoss).pending = s.pending := rfl

/-! ### evict -/

@[simp] theorem State.evict_counter (s : State) : (s.evict).counter = s.counter := rfl
@[simp] theorem State.evict_divider (s : State) : (s.evict).divider = s.divider := rfl
@[simp] theorem State.evict_elapsed (s : State) : (s.evict).elapsed = s.elapsed := rfl
@[simp] theorem State.evict_scheduler (s : State) : (s.evict).scheduler = s.scheduler := rfl
@[simp] theorem State.evict_probes (s : State) : (s.evict).probes = s.probes := rfl
@[simp] theorem State.evict_freeCount (s : State) : (s.evict).freeCount = s.freeCount := rfl
@[simp] theorem State.evict_dueQueue (s : State) : (s.evict).dueQueue = s.dueQueue := rfl
@[simp] theorem State.evict_engine (s : State) : (s.evict).engine = s.engine := rfl
@[simp] theorem State.evict_health (s : State) : (s.evict).health = s.health := rfl
@[simp] theorem State.evict_tolerance (s : State) : (s.evict).tolerance = s.tolerance := rfl
@[simp] theorem State.evict_notices (s : State) : (s.evict).notices = eraseLast Notice.evictable s.notices := rfl
@[simp] theorem State.evict_nextSeq (s : State) : (s.evict).nextSeq = s.nextSeq := rfl
@[simp] theorem State.evict_gapAcc (s : State) : (s.evict).gapAcc = satInc s.gapAcc := rfl
@[simp] theorem State.evict_holdSet (s : State) : (s.evict).holdSet = s.holdSet := rfl
@[simp] theorem State.evict_dropped (s : State) : (s.evict).dropped = satInc s.dropped := rfl
@[simp] theorem State.evict_receiver (s : State) : (s.evict).receiver = s.receiver := rfl
@[simp] theorem State.evict_transmitter (s : State) : (s.evict).transmitter = s.transmitter := rfl
@[simp] theorem State.evict_mute (s : State) : (s.evict).mute = s.mute := rfl
@[simp] theorem State.evict_ackTimeout (s : State) : (s.evict).ackTimeout = s.ackTimeout := rfl
@[simp] theorem State.evict_rate (s : State) : (s.evict).rate = s.rate := rfl
@[simp] theorem State.evict_counters (s : State) : (s.evict).counters = s.counters := rfl
@[simp] theorem State.evict_rxdHigh (s : State) : (s.evict).rxdHigh = s.rxdHigh := rfl
@[simp] theorem State.evict_inbox (s : State) : (s.evict).inbox = s.inbox := rfl
@[simp] theorem State.evict_parked (s : State) : (s.evict).parked = s.parked := rfl
@[simp] theorem State.evict_replies (s : State) : (s.evict).replies = s.replies := rfl
@[simp] theorem State.evict_softResetPending (s : State) : (s.evict).softResetPending = s.softResetPending := rfl
@[simp] theorem State.evict_resetCause (s : State) : (s.evict).resetCause = s.resetCause := rfl
@[simp] theorem State.evict_powerReset (s : State) : (s.evict).powerReset = s.powerReset := rfl
@[simp] theorem State.evict_pinReset (s : State) : (s.evict).pinReset = s.pinReset := rfl
@[simp] theorem State.evict_inReset (s : State) : (s.evict).inReset = s.inReset := rfl
@[simp] theorem State.evict_nextLink (s : State) : (s.evict).nextLink = s.nextLink := rfl
@[simp] theorem State.evict_nextFix (s : State) : (s.evict).nextFix = s.nextFix := rfl
@[simp] theorem State.evict_owed (s : State) : (s.evict).owed = s.owed := rfl
@[simp] theorem State.evict_pending (s : State) : (s.evict).pending = s.pending := rfl

/-! ### countOverflow -/

@[simp] theorem State.countOverflow_counter (s : State) : (s.countOverflow).counter = s.counter := rfl
@[simp] theorem State.countOverflow_divider (s : State) : (s.countOverflow).divider = s.divider := rfl
@[simp] theorem State.countOverflow_elapsed (s : State) : (s.countOverflow).elapsed = s.elapsed := rfl
@[simp] theorem State.countOverflow_scheduler (s : State) : (s.countOverflow).scheduler = s.scheduler := rfl
@[simp] theorem State.countOverflow_probes (s : State) : (s.countOverflow).probes = s.probes := rfl
@[simp] theorem State.countOverflow_freeCount (s : State) : (s.countOverflow).freeCount = s.freeCount := rfl
@[simp] theorem State.countOverflow_dueQueue (s : State) : (s.countOverflow).dueQueue = s.dueQueue := rfl
@[simp] theorem State.countOverflow_engine (s : State) : (s.countOverflow).engine = s.engine := rfl
@[simp] theorem State.countOverflow_health (s : State) : (s.countOverflow).health = s.health := rfl
@[simp] theorem State.countOverflow_tolerance (s : State) : (s.countOverflow).tolerance = s.tolerance := rfl
@[simp] theorem State.countOverflow_notices (s : State) : (s.countOverflow).notices = s.notices := rfl
@[simp] theorem State.countOverflow_nextSeq (s : State) : (s.countOverflow).nextSeq = s.nextSeq := rfl
@[simp] theorem State.countOverflow_gapAcc (s : State) : (s.countOverflow).gapAcc = s.gapAcc := rfl
@[simp] theorem State.countOverflow_holdSet (s : State) : (s.countOverflow).holdSet = s.holdSet := rfl
@[simp] theorem State.countOverflow_dropped (s : State) : (s.countOverflow).dropped = s.dropped := rfl
@[simp] theorem State.countOverflow_receiver (s : State) : (s.countOverflow).receiver = s.receiver := rfl
@[simp] theorem State.countOverflow_transmitter (s : State) : (s.countOverflow).transmitter = s.transmitter := rfl
@[simp] theorem State.countOverflow_mute (s : State) : (s.countOverflow).mute = s.mute := rfl
@[simp] theorem State.countOverflow_ackTimeout (s : State) : (s.countOverflow).ackTimeout = s.ackTimeout := rfl
@[simp] theorem State.countOverflow_rate (s : State) : (s.countOverflow).rate = s.rate := rfl
@[simp] theorem State.countOverflow_rxdHigh (s : State) : (s.countOverflow).rxdHigh = s.rxdHigh := rfl
@[simp] theorem State.countOverflow_inbox (s : State) : (s.countOverflow).inbox = s.inbox := rfl
@[simp] theorem State.countOverflow_parked (s : State) : (s.countOverflow).parked = s.parked := rfl
@[simp] theorem State.countOverflow_replies (s : State) : (s.countOverflow).replies = s.replies := rfl
@[simp] theorem State.countOverflow_softResetPending (s : State) :
    (s.countOverflow).softResetPending = s.softResetPending := rfl
@[simp] theorem State.countOverflow_resetCause (s : State) : (s.countOverflow).resetCause = s.resetCause := rfl
@[simp] theorem State.countOverflow_powerReset (s : State) : (s.countOverflow).powerReset = s.powerReset := rfl
@[simp] theorem State.countOverflow_pinReset (s : State) : (s.countOverflow).pinReset = s.pinReset := rfl
@[simp] theorem State.countOverflow_inReset (s : State) : (s.countOverflow).inReset = s.inReset := rfl
@[simp] theorem State.countOverflow_nextLink (s : State) : (s.countOverflow).nextLink = s.nextLink := rfl
@[simp] theorem State.countOverflow_nextFix (s : State) : (s.countOverflow).nextFix = s.nextFix := rfl
@[simp] theorem State.countOverflow_owed (s : State) : (s.countOverflow).owed = s.owed := rfl
@[simp] theorem State.countOverflow_pending (s : State) : (s.countOverflow).pending = s.pending := rfl

/-! ### endMute -/

@[simp] theorem State.endMute_counter (s : State) : (s.endMute).counter = s.counter := rfl
@[simp] theorem State.endMute_divider (s : State) : (s.endMute).divider = s.divider := rfl
@[simp] theorem State.endMute_elapsed (s : State) : (s.endMute).elapsed = s.elapsed := rfl
@[simp] theorem State.endMute_scheduler (s : State) : (s.endMute).scheduler = s.scheduler := rfl
@[simp] theorem State.endMute_probes (s : State) : (s.endMute).probes = s.probes := rfl
@[simp] theorem State.endMute_freeCount (s : State) : (s.endMute).freeCount = s.freeCount := rfl
@[simp] theorem State.endMute_dueQueue (s : State) : (s.endMute).dueQueue = s.dueQueue := rfl
@[simp] theorem State.endMute_engine (s : State) : (s.endMute).engine = s.engine := rfl
@[simp] theorem State.endMute_health (s : State) : (s.endMute).health = s.health := rfl
@[simp] theorem State.endMute_tolerance (s : State) : (s.endMute).tolerance = s.tolerance := rfl
@[simp] theorem State.endMute_nextSeq (s : State) : (s.endMute).nextSeq = s.nextSeq := rfl
@[simp] theorem State.endMute_gapAcc (s : State) : (s.endMute).gapAcc = s.gapAcc := rfl
@[simp] theorem State.endMute_holdSet (s : State) : (s.endMute).holdSet = s.holdSet := rfl
@[simp] theorem State.endMute_dropped (s : State) : (s.endMute).dropped = s.dropped := rfl
@[simp] theorem State.endMute_receiver (s : State) : (s.endMute).receiver = s.receiver := rfl
@[simp] theorem State.endMute_transmitter (s : State) : (s.endMute).transmitter = s.transmitter := rfl
@[simp] theorem State.endMute_mute (s : State) : (s.endMute).mute = false := rfl
@[simp] theorem State.endMute_ackTimeout (s : State) : (s.endMute).ackTimeout = s.ackTimeout := rfl
@[simp] theorem State.endMute_rate (s : State) : (s.endMute).rate = s.rate := rfl
@[simp] theorem State.endMute_counters (s : State) : (s.endMute).counters = s.counters := rfl
@[simp] theorem State.endMute_rxdHigh (s : State) : (s.endMute).rxdHigh = s.rxdHigh := rfl
@[simp] theorem State.endMute_inbox (s : State) : (s.endMute).inbox = s.inbox := rfl
@[simp] theorem State.endMute_parked (s : State) : (s.endMute).parked = s.parked := rfl
@[simp] theorem State.endMute_replies (s : State) : (s.endMute).replies = s.replies := rfl
@[simp] theorem State.endMute_softResetPending (s : State) : (s.endMute).softResetPending = s.softResetPending := rfl
@[simp] theorem State.endMute_resetCause (s : State) : (s.endMute).resetCause = s.resetCause := rfl
@[simp] theorem State.endMute_powerReset (s : State) : (s.endMute).powerReset = s.powerReset := rfl
@[simp] theorem State.endMute_pinReset (s : State) : (s.endMute).pinReset = s.pinReset := rfl
@[simp] theorem State.endMute_inReset (s : State) : (s.endMute).inReset = s.inReset := rfl
@[simp] theorem State.endMute_nextLink (s : State) : (s.endMute).nextLink = s.nextLink := rfl
@[simp] theorem State.endMute_nextFix (s : State) : (s.endMute).nextFix = s.nextFix := rfl
@[simp] theorem State.endMute_owed (s : State) : (s.endMute).owed = s.owed := rfl
@[simp] theorem State.endMute_pending (s : State) : (s.endMute).pending = s.pending := rfl

/-! ### advanceTick -/

@[simp] theorem State.advanceTick_counter (s : State) : (s.advanceTick).counter = s.counter + 1 := rfl
@[simp] theorem State.advanceTick_divider (s : State) : (s.advanceTick).divider = 0 := rfl
@[simp] theorem State.advanceTick_elapsed (s : State) : (s.advanceTick).elapsed = s.elapsed + 1 := rfl
@[simp] theorem State.advanceTick_scheduler (s : State) : (s.advanceTick).scheduler = s.scheduler := rfl
@[simp] theorem State.advanceTick_probes (s : State) : (s.advanceTick).probes = s.probes := rfl
@[simp] theorem State.advanceTick_freeCount (s : State) : (s.advanceTick).freeCount = s.freeCount := rfl
@[simp] theorem State.advanceTick_dueQueue (s : State) : (s.advanceTick).dueQueue = s.dueQueue := rfl
@[simp] theorem State.advanceTick_engine (s : State) : (s.advanceTick).engine = s.engine := rfl
@[simp] theorem State.advanceTick_health (s : State) : (s.advanceTick).health = s.health := rfl
@[simp] theorem State.advanceTick_tolerance (s : State) : (s.advanceTick).tolerance = s.tolerance := rfl
@[simp] theorem State.advanceTick_notices (s : State) : (s.advanceTick).notices = s.notices := rfl
@[simp] theorem State.advanceTick_nextSeq (s : State) : (s.advanceTick).nextSeq = s.nextSeq := rfl
@[simp] theorem State.advanceTick_gapAcc (s : State) : (s.advanceTick).gapAcc = s.gapAcc := rfl
@[simp] theorem State.advanceTick_holdSet (s : State) : (s.advanceTick).holdSet = s.holdSet := rfl
@[simp] theorem State.advanceTick_dropped (s : State) : (s.advanceTick).dropped = s.dropped := rfl
@[simp] theorem State.advanceTick_receiver (s : State) : (s.advanceTick).receiver = s.receiver := rfl
@[simp] theorem State.advanceTick_transmitter (s : State) : (s.advanceTick).transmitter = s.transmitter := rfl
@[simp] theorem State.advanceTick_mute (s : State) : (s.advanceTick).mute = s.mute := rfl
@[simp] theorem State.advanceTick_ackTimeout (s : State) : (s.advanceTick).ackTimeout = s.ackTimeout := rfl
@[simp] theorem State.advanceTick_rate (s : State) : (s.advanceTick).rate = s.rate := rfl
@[simp] theorem State.advanceTick_counters (s : State) : (s.advanceTick).counters = s.counters := rfl
@[simp] theorem State.advanceTick_rxdHigh (s : State) : (s.advanceTick).rxdHigh = s.rxdHigh := rfl
@[simp] theorem State.advanceTick_inbox (s : State) : (s.advanceTick).inbox = s.inbox := rfl
@[simp] theorem State.advanceTick_parked (s : State) : (s.advanceTick).parked = s.parked := rfl
@[simp] theorem State.advanceTick_replies (s : State) : (s.advanceTick).replies = s.replies := rfl
@[simp] theorem State.advanceTick_softResetPending (s : State) :
    (s.advanceTick).softResetPending = s.softResetPending := rfl
@[simp] theorem State.advanceTick_resetCause (s : State) : (s.advanceTick).resetCause = s.resetCause := rfl
@[simp] theorem State.advanceTick_powerReset (s : State) : (s.advanceTick).powerReset = s.powerReset := rfl
@[simp] theorem State.advanceTick_pinReset (s : State) : (s.advanceTick).pinReset = s.pinReset := rfl
@[simp] theorem State.advanceTick_inReset (s : State) : (s.advanceTick).inReset = s.inReset := rfl
@[simp] theorem State.advanceTick_nextLink (s : State) : (s.advanceTick).nextLink = s.nextLink := rfl
@[simp] theorem State.advanceTick_nextFix (s : State) : (s.advanceTick).nextFix = s.nextFix := rfl
@[simp] theorem State.advanceTick_owed (s : State) : (s.advanceTick).owed = Owed.tick := rfl
@[simp] theorem State.advanceTick_pending (s : State) : (s.advanceTick).pending = s.pending := rfl

/-! ### mapProbes -/

@[simp] theorem State.mapProbes_counter (f : Probe → Probe) (s : State) : (s.mapProbes f).counter = s.counter := rfl
@[simp] theorem State.mapProbes_divider (f : Probe → Probe) (s : State) : (s.mapProbes f).divider = s.divider := rfl
@[simp] theorem State.mapProbes_elapsed (f : Probe → Probe) (s : State) : (s.mapProbes f).elapsed = s.elapsed := rfl
@[simp] theorem State.mapProbes_scheduler (f : Probe → Probe) (s : State) : (s.mapProbes f).scheduler = s.scheduler := rfl
@[simp] theorem State.mapProbes_freeCount (f : Probe → Probe) (s : State) : (s.mapProbes f).freeCount = s.freeCount := rfl
@[simp] theorem State.mapProbes_dueQueue (f : Probe → Probe) (s : State) : (s.mapProbes f).dueQueue = s.dueQueue := rfl
@[simp] theorem State.mapProbes_engine (f : Probe → Probe) (s : State) : (s.mapProbes f).engine = s.engine := rfl
@[simp] theorem State.mapProbes_health (f : Probe → Probe) (s : State) : (s.mapProbes f).health = s.health := rfl
@[simp] theorem State.mapProbes_tolerance (f : Probe → Probe) (s : State) : (s.mapProbes f).tolerance = s.tolerance := rfl
@[simp] theorem State.mapProbes_notices (f : Probe → Probe) (s : State) : (s.mapProbes f).notices = s.notices := rfl
@[simp] theorem State.mapProbes_nextSeq (f : Probe → Probe) (s : State) : (s.mapProbes f).nextSeq = s.nextSeq := rfl
@[simp] theorem State.mapProbes_gapAcc (f : Probe → Probe) (s : State) : (s.mapProbes f).gapAcc = s.gapAcc := rfl
@[simp] theorem State.mapProbes_holdSet (f : Probe → Probe) (s : State) : (s.mapProbes f).holdSet = s.holdSet := rfl
@[simp] theorem State.mapProbes_dropped (f : Probe → Probe) (s : State) : (s.mapProbes f).dropped = s.dropped := rfl
@[simp] theorem State.mapProbes_receiver (f : Probe → Probe) (s : State) : (s.mapProbes f).receiver = s.receiver := rfl
@[simp] theorem State.mapProbes_transmitter (f : Probe → Probe) (s : State) : (s.mapProbes f).transmitter = s.transmitter := rfl
@[simp] theorem State.mapProbes_mute (f : Probe → Probe) (s : State) : (s.mapProbes f).mute = s.mute := rfl
@[simp] theorem State.mapProbes_ackTimeout (f : Probe → Probe) (s : State) : (s.mapProbes f).ackTimeout = s.ackTimeout := rfl
@[simp] theorem State.mapProbes_rate (f : Probe → Probe) (s : State) : (s.mapProbes f).rate = s.rate := rfl
@[simp] theorem State.mapProbes_counters (f : Probe → Probe) (s : State) : (s.mapProbes f).counters = s.counters := rfl
@[simp] theorem State.mapProbes_rxdHigh (f : Probe → Probe) (s : State) : (s.mapProbes f).rxdHigh = s.rxdHigh := rfl
@[simp] theorem State.mapProbes_inbox (f : Probe → Probe) (s : State) : (s.mapProbes f).inbox = s.inbox := rfl
@[simp] theorem State.mapProbes_parked (f : Probe → Probe) (s : State) : (s.mapProbes f).parked = s.parked := rfl
@[simp] theorem State.mapProbes_replies (f : Probe → Probe) (s : State) : (s.mapProbes f).replies = s.replies := rfl
@[simp] theorem State.mapProbes_softResetPending (f : Probe → Probe) (s : State) : (s.mapProbes f).softResetPending = s.softResetPending := rfl
@[simp] theorem State.mapProbes_resetCause (f : Probe → Probe) (s : State) : (s.mapProbes f).resetCause = s.resetCause := rfl
@[simp] theorem State.mapProbes_powerReset (f : Probe → Probe) (s : State) : (s.mapProbes f).powerReset = s.powerReset := rfl
@[simp] theorem State.mapProbes_pinReset (f : Probe → Probe) (s : State) : (s.mapProbes f).pinReset = s.pinReset := rfl
@[simp] theorem State.mapProbes_inReset (f : Probe → Probe) (s : State) : (s.mapProbes f).inReset = s.inReset := rfl
@[simp] theorem State.mapProbes_nextLink (f : Probe → Probe) (s : State) : (s.mapProbes f).nextLink = s.nextLink := rfl
@[simp] theorem State.mapProbes_nextFix (f : Probe → Probe) (s : State) : (s.mapProbes f).nextFix = s.nextFix := rfl
@[simp] theorem State.mapProbes_owed (f : Probe → Probe) (s : State) : (s.mapProbes f).owed = s.owed := rfl
@[simp] theorem State.mapProbes_pending (f : Probe → Probe) (s : State) : (s.mapProbes f).pending = s.pending := rfl

/-! ### Reading a probe record -/

/-- A record reads as written, and every other as before. -/
theorem State.probe_setProbe (s : State) (i j : Fin 32) (p : Probe) :
    (s.setProbe i p).probe j = if j = i then p else s.probe j := by
  simp only [State.probe, State.setProbe, Fin.getElem_fin, Vector.getElem_set, Fin.ext_iff, eq_comm]

@[simp] theorem State.probe_setProbe_same (s : State) (i : Fin 32) (p : Probe) : (s.setProbe i p).probe i = p := by
  simp [State.probe_setProbe]

theorem State.probe_setProbe_ne (s : State) {i j : Fin 32} (p : Probe) (h : j ≠ i) :
    (s.setProbe i p).probe j = s.probe j := by
  simp [State.probe_setProbe, h]

@[simp] theorem State.probe_mapProbes (f : Probe → Probe) (s : State) (i : Fin 32) :
    (s.mapProbes f).probe i = f (s.probe i) := by
  simp [State.probe, State.mapProbes]

/-- Writing back the record that stands changes nothing. -/
@[simp] theorem State.setProbe_probe (s : State) (i : Fin 32) : s.setProbe i (s.probe i) = s := by
  simp [State.setProbe, State.probe]

@[simp] theorem State.setProbe_setProbe (s : State) (i : Fin 32) (p q : Probe) :
    (s.setProbe i p).setProbe i q = s.setProbe i q := by
  simp [State.setProbe]

end Sys2Proof.Machine
end

