-- ==== Sys2Proof/Laws/Notices.lean ====
section
/-! SUPPORT. What the notice queue's operations can do: submission, merging at reversion, sequence numbers. -/

namespace Sys2Proof.Machine

/-! ### Lists -/

theorem mem_updateFirst {α : Type} {p : α → Bool} {f : α → α} {l : List α} {y : α}
    (h : y ∈ updateFirst p f l) : y ∈ l ∨ ∃ x ∈ l, p x = true ∧ y = f x := by
  induction l with
  | nil => simp [updateFirst] at h
  | cons x xs ih =>
    simp only [updateFirst] at h
    split at h
    · rename_i hp
      rcases List.mem_cons.1 h with rfl | h
      · exact .inr ⟨x, by simp, hp, rfl⟩
      · exact .inl (by simp [h])
    · rcases List.mem_cons.1 h with rfl | h
      · exact .inl (by simp)
      · rcases ih h with h | ⟨z, hz, hp, rfl⟩
        · exact .inl (by simp [h])
        · exact .inr ⟨z, by simp [hz], hp, rfl⟩

/-- An update of the first member a condition names keeps whatever the change keeps, member by member. -/
theorem map_updateFirst {α β : Type} (g : α → β) {p : α → Bool} {f : α → α} (h : ∀ x, p x = true → g (f x) = g x)
    (l : List α) : (updateFirst p f l).map g = l.map g := by
  induction l with
  | nil => rfl
  | cons x xs ih =>
    simp only [updateFirst]
    split
    · rename_i hp; simp [h x hp]
    · simp [ih]

@[simp] theorem length_updateFirst {α : Type} (p : α → Bool) (f : α → α) (l : List α) :
    (updateFirst p f l).length = l.length := by
  simpa using congrArg List.length (map_updateFirst (fun _ => ()) (p := p) (f := f) (fun _ _ => rfl) l)

/-- The first member a condition names is changed, and the others stand. -/
theorem updateFirst_append {α : Type} {p : α → Bool} (f : α → α) {before : List α} {x : α} (after : List α)
    (hb : ∀ y ∈ before, p y = false) (hx : p x = true) :
    updateFirst p f (before ++ x :: after) = before ++ f x :: after := by
  induction before with
  | nil => simp [updateFirst, hx]
  | cons y ys ih =>
    simp [updateFirst, hb y (by simp), ih fun z hz => hb z (by simp [hz])]

/-- A list with a member that a condition names splits at the first one. -/
theorem exists_first {α : Type} {p : α → Bool} {l : List α} (h : l.any p = true) :
    ∃ before x after, l = before ++ x :: after ∧ p x = true ∧ ∀ y ∈ before, p y = false := by
  induction l with
  | nil => simp at h
  | cons x xs ih =>
    by_cases hx : p x = true
    · exact ⟨[], x, xs, rfl, hx, by simp⟩
    · obtain ⟨b, z, a, rfl, hz, hb⟩ := ih (by simpa [hx] using h)
      exact ⟨x :: b, z, a, rfl, hz, by simpa [hx] using hb⟩

theorem eraseLast_sublist {α : Type} (p : α → Bool) (l : List α) : (eraseLast p l).Sublist l := by
  simpa [eraseLast] using (List.eraseP_sublist (p := p) (l := l.reverse)).reverse

/-- The last member a condition names is removed, and the others stand. -/
theorem eraseLast_append {α : Type} {p : α → Bool} (before : List α) {x : α} {after : List α} (hx : p x = true)
    (ha : ∀ y ∈ after, p y = false) : eraseLast p (before ++ x :: after) = before ++ after := by
  have : ∀ y ∈ after.reverse, ¬ p y = true := fun y hy => by simp [ha y (by simpa using hy)]
  simp [eraseLast, List.eraseP_append_right _ this, hx]

theorem length_eraseLast {α : Type} {p : α → Bool} {l : List α} (h : l.any p = true) :
    (eraseLast p l).length + 1 = l.length := by
  simp only [eraseLast, List.length_reverse]
  obtain ⟨x, hx, hp⟩ := List.any_eq_true.1 h
  have hx' : x ∈ l.reverse := by simpa using hx
  have := List.length_eraseP_of_mem hx' hp
  have hl : 1 ≤ l.length := List.length_pos_of_mem hx
  simp at this; omega

/-! ### Sequence numbers -/

/-- The number given is not taken, unless the search ends at its bound with every number so far taken. -/
theorem freshSeq_cases (taken : List Half) (fuel : Nat) (n : Half) :
    freshSeq taken fuel n ∉ taken ∨ ∀ k, k ≤ fuel → n + BitVec.ofNat 16 k ∈ taken := by
  induction fuel generalizing n with
  | zero => by_cases h : n ∈ taken <;> simp [freshSeq, h]
  | succ m ih =>
    simp only [freshSeq]
    split
    · rename_i hn
      refine (ih (n + 1)).imp_right fun hk k hlt => ?_
      cases k with
      | zero => simpa using hn
      | succ k =>
        have := hk k (by omega)
        have e : n + 1 + BitVec.ofNat 16 k = n + BitVec.ofNat 16 (k + 1) := by
          rw [BitVec.add_assoc]; congr 1; apply BitVec.eq_of_toNat_eq; simp; omega
        rwa [e] at this
    · rename_i hn; exact .inl hn

theorem freshSeq_of_not_mem {taken : List Half} {n : Half} (fuel : Nat) (h : n ∉ taken) :
    freshSeq taken fuel n = n := by
  cases fuel <;> simp [freshSeq, h]

/-- Looking past as many numbers as are taken finds one that is not (R114). -/
theorem freshSeq_not_mem (taken : List Half) (n : Half) (h : taken.length < 65536) :
    freshSeq taken taken.length n ∉ taken := by
  rcases freshSeq_cases taken taken.length n with h' | h'
  · exact h'
  · exfalso
    have hnd : ((List.range (taken.length + 1)).map fun k => n + BitVec.ofNat 16 k).Nodup := by
      refine List.Nodup.map_on (fun a ha b hb hab => ?_) List.nodup_range
      have := congrArg BitVec.toNat (add_left_cancel hab)
      simp only [BitVec.toNat_ofNat] at this
      simp only [List.mem_range] at ha hb
      omega
    have hsub : ((List.range (taken.length + 1)).map fun k => n + BitVec.ofNat 16 k) ⊆ taken := by
      intro x hx
      obtain ⟨k, hk, rfl⟩ := List.mem_map.1 hx
      exact h' k (by simp only [List.mem_range] at hk; omega)
    have := (List.subperm_of_subset hnd hsub).length_le
    simp at this

/-- The sequence number of a creation is new to a queue of fewer than 65536 notices (R114). -/
theorem State.assignSeq_not_mem (s : State) (h : s.notices.length < 65536) : s.assignSeq ∉ s.notices.map Notice.seq := by
  have := freshSeq_not_mem (s.notices.map Notice.seq) s.nextSeq (by simpa using h)
  simpa [State.assignSeq] using this

/-! ### Keys -/

/-- Taking in findings changes no key. -/
@[simp] theorem NoticeContent.key?_absorb {c d : NoticeContent} (h : c.key? = d.key?) :
    (c.absorb d).key? = d.key? := by
  cases c <;> cases d <;> simp_all [NoticeContent.absorb, NoticeContent.key?]

theorem NoticeContent.key?_eq_none {c : NoticeContent} : c.key? = none ↔ c.cls = .condition := by
  cases c <;> simp [NoticeContent.key?, NoticeContent.cls]

/-- Notices of one key are of one class. -/
theorem NoticeContent.cls_eq_of_key? {c d : NoticeContent} (h : c.key? = d.key?) : c.cls = d.cls := by
  cases c <;> cases d <;> simp_all [NoticeContent.key?, NoticeContent.cls]

theorem Notice.isTarget_iff {key : NoticeClass × Fin 32 × Byte} {n : Notice} :
    n.isTarget key = true ↔ n.delivery = .queued ∧ n.content.key? = some key := by
  simp [Notice.isTarget, Notice.isQueued]

/-! ### Submission -/

/-- A submission coalesces, appends, evicts and appends, or counts a loss (R115 to R121). -/
theorem State.submit_cases (s : State) (c : NoticeContent) :
    (s.hasTarget c = true ∧ s.submit c = s.coalesceNotice c) ∨
    (s.hasTarget c = false ∧ s.notices.length < 24 ∧ s.submit c = s.appendNotice c) ∨
    (s.hasTarget c = false ∧ 24 ≤ s.notices.length ∧ c.cls = .condition ∧ s.notices.any Notice.evictable = true ∧
      s.submit c = s.evict.appendNotice c) ∨
    (s.hasTarget c = false ∧ 24 ≤ s.notices.length ∧ (c.cls ≠ .condition ∨ s.notices.any Notice.evictable = false) ∧
      s.submit c = s.countLoss) := by
  unfold State.submit
  simp only [Config.noticeCapacity]
  by_cases h1 : s.hasTarget c = true
  · simp [h1]
  · by_cases h2 : s.notices.length < 24
    · simp [h1, h2]
    · by_cases h3 : c.cls = .condition <;> by_cases h4 : s.notices.any Notice.evictable = true <;>
        simp [h1, h2, h3, h4] <;> omega

/-- A submission touches the notices, the next number, the gap accumulator and the dropped total alone. -/
theorem State.submit_frame (s : State) (c : NoticeContent) :
    s.submit c = { s with
      notices := (s.submit c).notices
      nextSeq := (s.submit c).nextSeq
      gapAcc := (s.submit c).gapAcc
      dropped := (s.submit c).dropped } := by
  rcases s.submit_cases c with ⟨-, h⟩ | ⟨-, -, h⟩ | ⟨-, -, -, -, h⟩ | ⟨-, -, -, h⟩ <;> rw [h]
  · unfold State.coalesceNotice; split <;> rfl
  all_goals rfl

@[simp] theorem State.submit_counter (s : State) (c : NoticeContent) : (s.submit c).counter = s.counter := by
  rw [State.submit_frame]
@[simp] theorem State.submit_divider (s : State) (c : NoticeContent) : (s.submit c).divider = s.divider := by
  rw [State.submit_frame]
@[simp] theorem State.submit_elapsed (s : State) (c : NoticeContent) : (s.submit c).elapsed = s.elapsed := by
  rw [State.submit_frame]
@[simp] theorem State.submit_scheduler (s : State) (c : NoticeContent) : (s.submit c).scheduler = s.scheduler := by
  rw [State.submit_frame]
@[simp] theorem State.submit_probes (s : State) (c : NoticeContent) : (s.submit c).probes = s.probes := by
  rw [State.submit_frame]
@[simp] theorem State.submit_freeCount (s : State) (c : NoticeContent) : (s.submit c).freeCount = s.freeCount := by
  rw [State.submit_frame]
@[simp] theorem State.submit_dueQueue (s : State) (c : NoticeContent) : (s.submit c).dueQueue = s.dueQueue := by
  rw [State.submit_frame]
@[simp] theorem State.submit_engine (s : State) (c : NoticeContent) : (s.submit c).engine = s.engine := by
  rw [State.submit_frame]
@[simp] theorem State.submit_health (s : State) (c : NoticeContent) : (s.submit c).health = s.health := by
  rw [State.submit_frame]
@[simp] theorem State.submit_tolerance (s : State) (c : NoticeContent) : (s.submit c).tolerance = s.tolerance := by
  rw [State.submit_frame]
@[simp] theorem State.submit_holdSet (s : State) (c : NoticeContent) : (s.submit c).holdSet = s.holdSet := by
  rw [State.submit_frame]
@[simp] theorem State.submit_receiver (s : State) (c : NoticeContent) : (s.submit c).receiver = s.receiver := by
  rw [State.submit_frame]
@[simp] theorem State.submit_transmitter (s : State) (c : NoticeContent) : (s.submit c).transmitter = s.transmitter := by
  rw [State.submit_frame]
@[simp] theorem State.submit_mute (s : State) (c : NoticeContent) : (s.submit c).mute = s.mute := by
  rw [State.submit_frame]
@[simp] theorem State.submit_ackTimeout (s : State) (c : NoticeContent) : (s.submit c).ackTimeout = s.ackTimeout := by
  rw [State.submit_frame]
@[simp] theorem State.submit_rate (s : State) (c : NoticeContent) : (s.submit c).rate = s.rate := by
  rw [State.submit_frame]
@[simp] theorem State.submit_counters (s : State) (c : NoticeContent) : (s.submit c).counters = s.counters := by
  rw [State.submit_frame]
@[simp] theorem State.submit_rxdHigh (s : State) (c : NoticeContent) : (s.submit c).rxdHigh = s.rxdHigh := by
  rw [State.submit_frame]
@[simp] theorem State.submit_inbox (s : State) (c : NoticeContent) : (s.submit c).inbox = s.inbox := by
  rw [State.submit_frame]
@[simp] theorem State.submit_parked (s : State) (c : NoticeContent) : (s.submit c).parked = s.parked := by
  rw [State.submit_frame]
@[simp] theorem State.submit_replies (s : State) (c : NoticeContent) : (s.submit c).replies = s.replies := by
  rw [State.submit_frame]
@[simp] theorem State.submit_softResetPending (s : State) (c : NoticeContent) : (s.submit c).softResetPending = s.softResetPending := by
  rw [State.submit_frame]
@[simp] theorem State.submit_resetCause (s : State) (c : NoticeContent) : (s.submit c).resetCause = s.resetCause := by
  rw [State.submit_frame]
@[simp] theorem State.submit_powerReset (s : State) (c : NoticeContent) : (s.submit c).powerReset = s.powerReset := by
  rw [State.submit_frame]
@[simp] theorem State.submit_pinReset (s : State) (c : NoticeContent) : (s.submit c).pinReset = s.pinReset := by
  rw [State.submit_frame]
@[simp] theorem State.submit_inReset (s : State) (c : NoticeContent) : (s.submit c).inReset = s.inReset := by
  simp [State.inReset]
@[simp] theorem State.submit_nextLink (s : State) (c : NoticeContent) : (s.submit c).nextLink = s.nextLink := by
  rw [State.submit_frame]
@[simp] theorem State.submit_nextFix (s : State) (c : NoticeContent) : (s.submit c).nextFix = s.nextFix := by
  rw [State.submit_frame]
@[simp] theorem State.submit_owed (s : State) (c : NoticeContent) : (s.submit c).owed = s.owed := by
  rw [State.submit_frame]
@[simp] theorem State.submit_pending (s : State) (c : NoticeContent) : (s.submit c).pending = s.pending := by
  rw [State.submit_frame]

@[simp] theorem State.submit_probe (s : State) (c : NoticeContent) (i : Fin 32) : (s.submit c).probe i = s.probe i := by
  simp [State.probe]

/-- What a submission writes depends on the notice fields and the counter alone. -/
theorem State.submit_congr {s t : State} (c : NoticeContent) (hn : t.notices = s.notices) (hq : t.nextSeq = s.nextSeq)
    (hg : t.gapAcc = s.gapAcc) (hd : t.dropped = s.dropped) (hc : t.counter = s.counter) :
    t.submit c = { t with
      notices := (s.submit c).notices
      nextSeq := (s.submit c).nextSeq
      gapAcc := (s.submit c).gapAcc
      dropped := (s.submit c).dropped } := by
  cases s; cases t
  dsimp only at hn hq hg hd hc
  subst hn hq hg hd hc
  rcases hk : c.key? with _ | key <;>
  simp only [State.submit, State.hasTarget, State.coalesceNotice, hk, State.appendNotice, State.countLoss, State.evict,
    State.assignSeq] <;> split_ifs <;> rfl

/-! ### Merging at reversion (R122) -/

/-- A notice is added at the end, or merged into the QUEUED notice of its key. -/
theorem mergeStep_cases (kept : List Notice) (n : Notice) :
    (mergeStep kept n = kept ++ [n] ∧
      (n.delivery = .queued → n.content.key? ≠ none → ∀ m ∈ kept, m.delivery = .queued →
        m.content.key? ≠ n.content.key?)) ∨
    ∃ before m after, kept = before ++ m :: after ∧ n.delivery = .queued ∧ n.content.key? ≠ none ∧
      m.delivery = .queued ∧ m.content.key? = n.content.key? ∧
      mergeStep kept n = before ++ Notice.mergeIn n m :: after := by
  rcases hk : n.content.key? with _ | key
  · exact .inl ⟨by simp [mergeStep, hk], by simp⟩
  · by_cases h : (n.isQueued && kept.any (Notice.isTarget key)) = true
    · right
      obtain ⟨hq, ha⟩ := Bool.and_eq_true_iff.1 h
      obtain ⟨b, m, a, rfl, hm, hb⟩ := exists_first ha
      obtain ⟨h1, h2⟩ := Notice.isTarget_iff.1 hm
      refine ⟨b, m, a, rfl, by simpa [Notice.isQueued] using hq, by simp, h1, h2, ?_⟩
      have : mergeStep (b ++ m :: a) n = updateFirst (Notice.isTarget key) (Notice.mergeIn n) (b ++ m :: a) := by
        simp only [mergeStep, hk]; exact if_pos h
      rw [this, updateFirst_append _ _ hb hm]
    · left
      refine ⟨by simp only [mergeStep, hk]; exact if_neg h, fun hq _ m hm hd hkm => h ?_⟩
      simp only [Bool.and_eq_true, List.any_eq_true]
      exact ⟨by simp [Notice.isQueued, hq], m, hm, Notice.isTarget_iff.2 ⟨hd, hkm⟩⟩

/-- What merging keeps of a notice. -/
@[simp] theorem Notice.mergeIn_seq (n m : Notice) : (Notice.mergeIn n m).seq = m.seq := rfl
@[simp] theorem Notice.mergeIn_retries (n m : Notice) : (Notice.mergeIn n m).retries = m.retries := rfl
@[simp] theorem Notice.mergeIn_delivery (n m : Notice) : (Notice.mergeIn n m).delivery = m.delivery := rfl

theorem Notice.mergeIn_key? {n m : Notice} (h : m.content.key? = n.content.key?) :
    (Notice.mergeIn n m).content.key? = m.content.key? := by
  simp [Notice.mergeIn, h]

/-- Two members of a list of notices that are QUEUED do not share a key. -/
def UniqueKeys (l : List Notice) : Prop :=
  l.Pairwise fun a b => a.delivery = .queued → b.delivery = .queued → a.content.key? = b.content.key? →
    a.content.key? = none

theorem mergeStep_uniqueKeys {kept : List Notice} (n : Notice) (h : UniqueKeys kept) : UniqueKeys (mergeStep kept n) := by
  rcases mergeStep_cases kept n with ⟨e, hn⟩ | ⟨b, m, a, rfl, hq, hk, hm, hmk, e⟩ <;> rw [e]
  · refine List.pairwise_append.2 ⟨h, List.pairwise_singleton _ _, fun x hx y hy hxq hyq hxy => ?_⟩
    obtain rfl := List.mem_singleton.1 hy
    by_contra hne
    exact hn hyq (hxy ▸ hne) x hx hxq hxy
  · unfold UniqueKeys at h ⊢
    simp only [List.pairwise_append, List.pairwise_cons, List.mem_cons, forall_eq_or_imp] at h ⊢
    simpa only [Notice.mergeIn_delivery, Notice.mergeIn_key? hmk] using h

/-- Merging leaves one QUEUED notice of a key at most (R122). -/
theorem mergeQueued_uniqueKeys (l : List Notice) : UniqueKeys (mergeQueued l) := by
  suffices ∀ kept, UniqueKeys kept → UniqueKeys (l.foldl mergeStep kept) from this [] List.Pairwise.nil
  induction l with
  | nil => exact fun _ h => h
  | cons n l ih => exact fun kept h => ih _ (mergeStep_uniqueKeys n h)

/-- Of a kept notice merging changes no sequence number, retries, delivery state or key; it adds no notice. -/
theorem mergeQueued_sublist (l : List Notice) :
    ((mergeQueued l).map fun n => (n.seq, n.retries, n.delivery, n.content.key?)).Sublist
      (l.map fun n => (n.seq, n.retries, n.delivery, n.content.key?)) := by
  suffices ∀ kept, ((l.foldl mergeStep kept).map fun n => (n.seq, n.retries, n.delivery, n.content.key?)).Sublist
      ((kept ++ l).map fun n => (n.seq, n.retries, n.delivery, n.content.key?)) from by
    unfold mergeQueued; simpa using this []
  induction l with
  | nil => intro kept; simp
  | cons n l ih =>
    intro kept
    refine (ih _).trans ?_
    rcases mergeStep_cases kept n with ⟨e, -⟩ | ⟨b, m, a, rfl, -, -, -, hmk, e⟩ <;> rw [e]
    · simp
    · simp [Notice.mergeIn_key? hmk]

/-- A list without two QUEUED notices of a key is its own merging. -/
theorem mergeQueued_of_uniqueKeys {l : List Notice} (h : UniqueKeys l) : mergeQueued l = l := by
  suffices ∀ kept, UniqueKeys (kept ++ l) → l.foldl mergeStep kept = kept ++ l from by
    unfold mergeQueued; simpa using this [] h
  clear h
  induction l with
  | nil => simp
  | cons n l ih =>
    intro kept h
    rcases mergeStep_cases kept n with ⟨e, -⟩ | ⟨b, m, a, rfl, hq, hk, hm, hmk, -⟩
    · simpa [e] using ih (kept ++ [n]) (by simpa using h)
    · exfalso
      unfold UniqueKeys at h
      have := (List.pairwise_append.1 h).2.2 m (by simp) n (by simp)
      exact hk (hmk ▸ this hm hq hmk)

end Sys2Proof.Machine
end

