-- ==== Sys2Proof/Laws/Ops.lean ====
section
/-! SUPPORT. What the shared operations can do: due queue, parked outcomes, the taking of a command, owed work. -/

namespace Sys2Proof.Machine

/-! ### Due queue -/

/-- An insertion adds one entry. -/
theorem insertAhead_perm (behind : DueEntry → Bool) (x : DueEntry) (l : List DueEntry) :
    (insertAhead behind x l).Perm (x :: l) := by
  induction l with
  | nil => exact .refl _
  | cons y ys ih =>
    simp only [insertAhead]
    split
    · exact .refl _
    · exact (ih.cons y).trans (.swap x y ys)

/-- The entries already queued keep their order. -/
theorem insertAhead_sublist (behind : DueEntry → Bool) (x : DueEntry) (l : List DueEntry) :
    l.Sublist (insertAhead behind x l) := by
  induction l with
  | nil => simp [insertAhead]
  | cons y ys ih =>
    simp only [insertAhead]
    split
    · exact List.sublist_cons_self _ _
    · exact ih.cons_cons y

@[simp] theorem mem_insertAhead {behind : DueEntry → Bool} {x y : DueEntry} {l : List DueEntry} :
    y ∈ insertAhead behind x l ↔ y = x ∨ y ∈ l := by
  rw [(insertAhead_perm behind x l).mem_iff, List.mem_cons]

@[simp] theorem length_insertAhead (behind : DueEntry → Bool) (x : DueEntry) (l : List DueEntry) :
    (insertAhead behind x l).length = l.length + 1 := by
  rw [(insertAhead_perm behind x l).length_eq, List.length_cons]

@[simp] theorem countP_insertAhead (q behind : DueEntry → Bool) (x : DueEntry) (l : List DueEntry) :
    (insertAhead behind x l).countP q = l.countP q + if q x then 1 else 0 := by
  rw [(insertAhead_perm behind x l).countP_eq, List.countP_cons]

/-- An insertion goes between the entries that stay ahead and the first that must stand behind. -/
theorem insertAhead_append {behind : DueEntry → Bool} (x : DueEntry) {ahead rest : List DueEntry}
    (ha : ∀ y ∈ ahead, behind y = false) (hr : ∀ y ∈ rest.head?, behind y = true) :
    insertAhead behind x (ahead ++ rest) = ahead ++ x :: rest := by
  induction ahead with
  | nil => cases rest <;> simp_all [insertAhead]
  | cons y ys ih => simp [insertAhead, ha y (by simp), ih fun z hz => ha z (by simp [hz])]

/-! ### Parked outcomes (R164) -/

theorem State.fixEntry_frame (body : ReplyBody) (s : State) (e : ParkedEntry) :
    State.fixEntry body s e = { s with
      parked := (State.fixEntry body s e).parked
      replies := (State.fixEntry body s e).replies
      nextFix := (State.fixEntry body s e).nextFix } := by
  unfold State.fixEntry; split <;> rfl

/-- The fixing of outcomes touches the parked list, the reply queue and the order of fixing alone. -/
theorem State.fixOutcomes_frame (s : State) (which : ParkedEntry → Bool) (body : ReplyBody) :
    s.fixOutcomes which body = { s with
      parked := (s.fixOutcomes which body).parked
      replies := (s.fixOutcomes which body).replies
      nextFix := (s.fixOutcomes which body).nextFix } := by
  unfold State.fixOutcomes
  generalize (s.parked.filter fun e => e.awaited && which e) = l
  induction l generalizing s with
  | nil => rfl
  | cons e l ih =>
    simp only [List.foldl_cons]
    have h := ih (State.fixEntry body s e)
    rw [State.fixEntry_frame] at h ⊢
    exact h

@[simp] theorem State.fixOutcomes_counter (s : State) (w : ParkedEntry → Bool) (b : ReplyBody) : (s.fixOutcomes w b).counter = s.counter := by
  rw [State.fixOutcomes_frame]
@[simp] theorem State.fixOutcomes_divider (s : State) (w : ParkedEntry → Bool) (b : ReplyBody) : (s.fixOutcomes w b).divider = s.divider := by
  rw [State.fixOutcomes_frame]
@[simp] theorem State.fixOutcomes_elapsed (s : State) (w : ParkedEntry → Bool) (b : ReplyBody) : (s.fixOutcomes w b).elapsed = s.elapsed := by
  rw [State.fixOutcomes_frame]
@[simp] theorem State.fixOutcomes_scheduler (s : State) (w : ParkedEntry → Bool) (b : ReplyBody) : (s.fixOutcomes w b).scheduler = s.scheduler := by
  rw [State.fixOutcomes_frame]
@[simp] theorem State.fixOutcomes_probes (s : State) (w : ParkedEntry → Bool) (b : ReplyBody) : (s.fixOutcomes w b).probes = s.probes := by
  rw [State.fixOutcomes_frame]
@[simp] theorem State.fixOutcomes_freeCount (s : State) (w : ParkedEntry → Bool) (b : ReplyBody) : (s.fixOutcomes w b).freeCount = s.freeCount := by
  rw [State.fixOutcomes_frame]
@[simp] theorem State.fixOutcomes_dueQueue (s : State) (w : ParkedEntry → Bool) (b : ReplyBody) : (s.fixOutcomes w b).dueQueue = s.dueQueue := by
  rw [State.fixOutcomes_frame]
@[simp] theorem State.fixOutcomes_engine (s : State) (w : ParkedEntry → Bool) (b : ReplyBody) : (s.fixOutcomes w b).engine = s.engine := by
  rw [State.fixOutcomes_frame]
@[simp] theorem State.fixOutcomes_health (s : State) (w : ParkedEntry → Bool) (b : ReplyBody) : (s.fixOutcomes w b).health = s.health := by
  rw [State.fixOutcomes_frame]
@[simp] theorem State.fixOutcomes_tolerance (s : State) (w : ParkedEntry → Bool) (b : ReplyBody) : (s.fixOutcomes w b).tolerance = s.tolerance := by
  rw [State.fixOutcomes_frame]
@[simp] theorem State.fixOutcomes_notices (s : State) (w : ParkedEntry → Bool) (b : ReplyBody) : (s.fixOutcomes w b).notices = s.notices := by
  rw [State.fixOutcomes_frame]
@[simp] theorem State.fixOutcomes_nextSeq (s : State) (w : ParkedEntry → Bool) (b : ReplyBody) : (s.fixOutcomes w b).nextSeq = s.nextSeq := by
  rw [State.fixOutcomes_frame]
@[simp] theorem State.fixOutcomes_gapAcc (s : State) (w : ParkedEntry → Bool) (b : ReplyBody) : (s.fixOutcomes w b).gapAcc = s.gapAcc := by
  rw [State.fixOutcomes_frame]
@[simp] theorem State.fixOutcomes_holdSet (s : State) (w : ParkedEntry → Bool) (b : ReplyBody) : (s.fixOutcomes w b).holdSet = s.holdSet := by
  rw [State.fixOutcomes_frame]
@[simp] theorem State.fixOutcomes_dropped (s : State) (w : ParkedEntry → Bool) (b : ReplyBody) : (s.fixOutcomes w b).dropped = s.dropped := by
  rw [State.fixOutcomes_frame]
@[simp] theorem State.fixOutcomes_receiver (s : State) (w : ParkedEntry → Bool) (b : ReplyBody) : (s.fixOutcomes w b).receiver = s.receiver := by
  rw [State.fixOutcomes_frame]
@[simp] theorem State.fixOutcomes_transmitter (s : State) (w : ParkedEntry → Bool) (b : ReplyBody) : (s.fixOutcomes w b).transmitter = s.transmitter := by
  rw [State.fixOutcomes_frame]
@[simp] theorem State.fixOutcomes_mute (s : State) (w : ParkedEntry → Bool) (b : ReplyBody) : (s.fixOutcomes w b).mute = s.mute := by
  rw [State.fixOutcomes_frame]
@[simp] theorem State.fixOutcomes_ackTimeout (s : State) (w : ParkedEntry → Bool) (b : ReplyBody) : (s.fixOutcomes w b).ackTimeout = s.ackTimeout := by
  rw [State.fixOutcomes_frame]
@[simp] theorem State.fixOutcomes_rate (s : State) (w : ParkedEntry → Bool) (b : ReplyBody) : (s.fixOutcomes w b).rate = s.rate := by
  rw [State.fixOutcomes_frame]
@[simp] theorem State.fixOutcomes_counters (s : State) (w : ParkedEntry → Bool) (b : ReplyBody) : (s.fixOutcomes w b).counters = s.counters := by
  rw [State.fixOutcomes_frame]
@[simp] theorem State.fixOutcomes_rxdHigh (s : State) (w : ParkedEntry → Bool) (b : ReplyBody) : (s.fixOutcomes w b).rxdHigh = s.rxdHigh := by
  rw [State.fixOutcomes_frame]
@[simp] theorem State.fixOutcomes_inbox (s : State) (w : ParkedEntry → Bool) (b : ReplyBody) : (s.fixOutcomes w b).inbox = s.inbox := by
  rw [State.fixOutcomes_frame]
@[simp] theorem State.fixOutcomes_softResetPending (s : State) (w : ParkedEntry → Bool) (b : ReplyBody) : (s.fixOutcomes w b).softResetPending = s.softResetPending := by
  rw [State.fixOutcomes_frame]
@[simp] theorem State.fixOutcomes_resetCause (s : State) (w : ParkedEntry → Bool) (b : ReplyBody) : (s.fixOutcomes w b).resetCause = s.resetCause := by
  rw [State.fixOutcomes_frame]
@[simp] theorem State.fixOutcomes_powerReset (s : State) (w : ParkedEntry → Bool) (b : ReplyBody) : (s.fixOutcomes w b).powerReset = s.powerReset := by
  rw [State.fixOutcomes_frame]
@[simp] theorem State.fixOutcomes_pinReset (s : State) (w : ParkedEntry → Bool) (b : ReplyBody) : (s.fixOutcomes w b).pinReset = s.pinReset := by
  rw [State.fixOutcomes_frame]
@[simp] theorem State.fixOutcomes_inReset (s : State) (w : ParkedEntry → Bool) (b : ReplyBody) : (s.fixOutcomes w b).inReset = s.inReset := by
  simp [State.inReset]
@[simp] theorem State.fixOutcomes_nextLink (s : State) (w : ParkedEntry → Bool) (b : ReplyBody) : (s.fixOutcomes w b).nextLink = s.nextLink := by
  rw [State.fixOutcomes_frame]
@[simp] theorem State.fixOutcomes_owed (s : State) (w : ParkedEntry → Bool) (b : ReplyBody) : (s.fixOutcomes w b).owed = s.owed := by
  rw [State.fixOutcomes_frame]
@[simp] theorem State.fixOutcomes_pending (s : State) (w : ParkedEntry → Bool) (b : ReplyBody) : (s.fixOutcomes w b).pending = s.pending := by
  rw [State.fixOutcomes_frame]

@[simp] theorem State.fixOutcomes_probe (s : State) (w : ParkedEntry → Bool) (b : ReplyBody) (i : Fin 32) :
    (s.fixOutcomes w b).probe i = s.probe i := by
  simp [State.probe]

/-- Without an awaited entry that the condition names nothing is fixed. -/
theorem State.fixOutcomes_none {s : State} {which : ParkedEntry → Bool} (body : ReplyBody)
    (h : ∀ e ∈ s.parked, e.outcome = .awaited → which e = false) : s.fixOutcomes which body = s := by
  have : (s.parked.filter fun e => e.awaited && which e) = [] := by
    simp only [List.filter_eq_nil_iff, Bool.and_eq_true, not_and, ParkedEntry.awaited, decide_eq_true_eq]
    intro e he ha; simp [h e he ha]
  simp [State.fixOutcomes, this]

/-- With one awaited entry that the condition names: its reply is queued if a slot is free and no fixed entry waits, and
the entry waits otherwise (R164). -/
theorem State.fixOutcomes_one {s : State} {which : ParkedEntry → Bool} (body : ReplyBody)
    {before after : List ParkedEntry} {q : ParkedEntry} (hp : s.parked = before ++ q :: after)
    (hq : q.outcome = .awaited) (hw : which q = true)
    (ho : ∀ e ∈ before ++ after, (e.outcome = .awaited → which e = false) ∧ e.link ≠ q.link) :
    s.fixOutcomes which body =
      if s.replies.length < 8 ∧ ∀ e ∈ s.parked, e.outcome = .awaited then
        { s with parked := before ++ after, replies := s.replies ++ [⟨q.tag, q.command.code, body⟩] }
      else
        { s with
          parked := before ++ { q with outcome := .fixed s.nextFix body } :: after
          nextFix := s.nextFix + 1 } := by
  have hf : ∀ l : List ParkedEntry, (∀ e ∈ l, e.outcome = .awaited → which e = false) →
      l.filter (fun e => e.awaited && which e) = [] := by
    intro l hl
    simp only [List.filter_eq_nil_iff, Bool.and_eq_true, not_and, ParkedEntry.awaited, decide_eq_true_eq]
    intro e he ha; simp [hl e he ha]
  have h1 : (s.parked.filter fun e => e.awaited && which e) = [q] := by
    rw [hp, List.filter_append, List.filter_cons, hf before fun e he => (ho e (by simp [he])).1,
      hf after fun e he => (ho e (by simp [he])).1]
    simp [ParkedEntry.awaited, hq, hw]
  have hb : ∀ l : List ParkedEntry, (∀ e ∈ l, e.link ≠ q.link) → l.filter (fun e => e.link ≠ q.link) = l :=
    fun l hl => List.filter_eq_self.2 fun e he => by simp [hl e he]
  have hm : ∀ l : List ParkedEntry, (∀ e ∈ l, e.link ≠ q.link) →
      l.map (fun e => if e.link = q.link then { e with outcome := .fixed s.nextFix body } else e) = l := fun l hl => by
    conv_rhs => rw [← List.map_id l]
    exact List.map_congr_left fun e he => by simp [hl e he]
  have h2 : s.fixOutcomes which body = State.fixEntry body s q := by rw [State.fixOutcomes, h1]; rfl
  rw [h2]
  simp only [State.fixEntry]
  have hc : (s.replySlot && !s.outcomeWaiting) = true ↔
      (s.replies.length < 8 ∧ ∀ e ∈ s.parked, e.outcome = .awaited) := by
    simp [State.replySlot, State.outcomeWaiting, ParkedEntry.awaited, show Config.replyCapacity = 8 from rfl]
  by_cases h : s.replies.length < 8 ∧ ∀ e ∈ s.parked, e.outcome = .awaited
  · rw [if_pos (hc.2 h), if_pos h]
    have hu : (s.unpark q.link).parked = before ++ after := by
      rw [State.unpark_parked, hp, List.filter_append, List.filter_cons, hb before fun e he => (ho e (by simp [he])).2,
        hb after fun e he => (ho e (by simp [he])).2]
      simp
    rw [← hu]; rfl
  · rw [if_neg (fun k => h (hc.1 k)), if_neg h]
    have hu : (s.markFixed q.link body).parked = before ++ { q with outcome := .fixed s.nextFix body } :: after := by
      simp only [State.markFixed, hp, List.map_append, List.map_cons, hm before fun e he => (ho e (by simp [he])).2,
        hm after fun e he => (ho e (by simp [he])).2, if_true]
    rw [← hu]; rfl

/-! ### Owed work -/

/-- Between events nothing is owed, and settling changes nothing. -/
theorem State.settled_of_quiet {s : State} (h : s.Quiet) : s.settled = s := by
  have h' : s.owed = Owed.nothing := (Prod.mk.inj h).2
  simp [State.settled, State.runReceipt, State.runDueCheck, State.runTimeouts, State.runGap, h', Owed.nothing]

/-- Between events an event has its own effect alone. -/
theorem State.act_of_quiet {s : State} (h : s.Quiet) (event : State → State) : s.act event = event s := by
  have h' : s.inReset = false := (Prod.mk.inj h).1
  simp [State.act, State.unlessReset, h', State.settled_of_quiet h]

/-- Nothing happens to a part held in reset. -/
theorem State.unlessReset_of_inReset {s : State} (h : s.inReset = true) (event : State → State) :
    s.unlessReset event = s := by
  simp [State.unlessReset, h]

/-- Out of reset an event is what it is. -/
theorem State.unlessReset_of_running {s : State} (h : s.inReset = false) (event : State → State) :
    s.unlessReset event = event s := by
  simp [State.unlessReset, h]

/-! ### The taking of a command (R161, R162) -/

/-- A command that may be taken with a fresh tag is carried out, its frame out of the inbox. -/
theorem State.serve_taking {s : State} {c : HostCommand} {f : Frame} {rest : List Frame}
    (h : s.Taking c f rest) (carryOut : Frame → State → State) :
    s.serve c carryOut = carryOut f { s with inbox := rest } := by
  have hw : (s.parked.any fun e => !e.awaited) = false := by
    simpa [ParkedEntry.awaited] using h.noneWaiting
  have ht : (s.parked.any fun e => decide (e.tag = f.tag)) = false := by
    simpa using h.freshTag
  simp only [State.serve, State.act_of_quiet h.quiet, State.takeCommand, h.front, h.kind, State.canTake, State.replySlot,
    State.outcomeWaiting, Config.replyCapacity, h.slot, hw, h.notPending, ht]
  simp

/-- A command that may be taken with a tag in use is refused TAG_IN_USE (R162). -/
theorem State.serve_tagInUse {s : State} {c : HostCommand} {f : Frame} {rest : List Frame}
    (h : s.MayTake c f rest) (ht : ∃ p ∈ s.parked, p.tag = f.tag) (carryOut : Frame → State → State) :
    s.serve c carryOut = State.answer { s with inbox := rest } f .tagInUse := by
  have hw : (s.parked.any fun e => !e.awaited) = false := by
    simpa [ParkedEntry.awaited] using h.noneWaiting
  have ht : (s.parked.any fun e => decide (e.tag = f.tag)) = true := by
    simpa using ht
  simp only [State.serve, State.act_of_quiet h.quiet, State.takeCommand, h.front, h.kind, State.canTake, State.replySlot,
    State.outcomeWaiting, Config.replyCapacity, h.slot, hw, h.notPending, ht]
  simp

/-- No command is taken without its frame in front and the conditions of R161. -/
theorem State.takeCommand_blocked {s : State} {c : HostCommand} (carryOut : Frame → State → State)
    (h : s.inbox = [] ∨ (∃ f rest, s.inbox = f :: rest ∧ f.kind ≠ c.code) ∨ 8 ≤ s.replies.length ∨
      (∃ p ∈ s.parked, p.outcome ≠ .awaited) ∨ s.softResetPending = true) : s.takeCommand c carryOut = s := by
  unfold State.takeCommand
  rcases hi : s.inbox with _ | ⟨f, rest⟩
  · rfl
  · refine if_neg ?_
    simp only [State.canTake, State.replySlot, State.outcomeWaiting, ParkedEntry.awaited,
      Bool.and_eq_true, Bool.not_eq_true', decide_eq_true_eq, List.any_eq_false, not_and]
    rcases h with h | ⟨f', rest', h, hk⟩ | h | ⟨p, hp, ho⟩ | h
    · simp [hi] at h
    · obtain ⟨rfl, rfl⟩ := by simpa [hi] using h
      exact fun k => absurd k hk
    · intro _ h1; exact absurd h1.1 (by simp only [Config.replyCapacity]; omega)
    · intro _ h1; exact absurd (by simpa using h1.2 p hp) ho
    · intro _ _; simp [h]

/-- A command whose first field is the id of probe i is carried out on probe i. -/
theorem State.onProbe_names {f : Frame} {i : Fin 32} (h : f.names i) (carryOut : Fin 32 → State → State) (s : State) :
    State.onProbe f carryOut s = carryOut i s := by
  have : (byteAt f.payload 0).toNat = i.val := by
    rw [show byteAt f.payload 0 = BitVec.ofNat 8 i.val from h]; simp; omega
  simp [State.onProbe, this]

/-- An id above 31 is answered NO_PROBE (R1). -/
theorem State.onProbe_none {f : Frame} (h : 31 < (byteAt f.payload 0).toNat) (carryOut : Fin 32 → State → State)
    (s : State) : State.onProbe f carryOut s = s.answer f .noProbe := by
  simp only [State.onProbe]; rw [dif_neg (by omega)]

end Sys2Proof.Machine
end

