-- ==== Sys2Proof/Laws/Link.lean ====
section
/-! SUPPORT. Characters on the line, and the level of TXD. -/

namespace Sys2Proof

/-- A byte put on the line is read back. -/
@[simp] theorem Character.byte_ofByte (b : Byte) : (Character.ofByte b).byte = b := by
  apply BitVec.eq_of_getLsbD_eq
  intro k hk
  rw [Character.byte, BitVec.getLsbD_cast, BitVec.getLsbD_ofBoolListLE]
  simp [Character.ofByte, hk]

@[simp] theorem Character.stopHigh_ofByte (b : Byte) : (Character.ofByte b).stopHigh = true := rfl

/-- A start bit, eight data bits and a stop bit. -/
@[simp] theorem Character.length_levels (c : Character) : c.levels.length = 10 := by
  simp [Character.levels]

namespace Machine

/-- A held part drives no line. -/
theorem State.lines_of_inReset {s : State} (h : s.inReset = true) (k : Nat) :
    s.alertAsserted = false ∧ s.txdHigh k = true := by
  simp [State.alertAsserted, State.txdHigh, h]

/-- A character with a high stop bit outside a break is the arrival of its byte. -/
theorem State.endCharacter_arrives {s : State} {c : Character} (h : s.transmitter ≠ .held) (hs : c.stopHigh = true) :
    s.endCharacter c = { s with rxdHigh := true }.arrive c.byte := by
  simp [State.endCharacter, h, hs]

end Machine

end Sys2Proof
end

