-- ==== Sys2Proof/Laws/Parked.lean ====
section
/-! SUPPORT. What fixing the outcomes of several parked entries at one event comes to (R164). -/

namespace Sys2Proof.Machine

/-- Two entries of one link are one entry. -/
theorem State.LinksDistinct.eq_of_link {s : State} (h : s.LinksDistinct) {p q : ParkedEntry} (hp : p ∈ s.parked)
    (hq : q ∈ s.parked) (e : p.link = q.link) : p = q :=
  List.inj_on_of_nodup_map h hp hq e

/-- Marking an outcome fixed leaves the links. -/
theorem State.markFixed_links {s : State} (h : s.LinksDistinct) (link : Nat) (body : ReplyBody) :
    (s.markFixed link body).LinksDistinct := by
  have e : (s.markFixed link body).parked.map ParkedEntry.link = s.parked.map ParkedEntry.link := by
    simp only [State.markFixed, List.map_map]
    exact List.map_congr_left fun p _ => by by_cases c : p.link = link <;> simp [c]
  unfold State.LinksDistinct
  rw [e]; exact h

/-- Without a slot, or behind an outcome that waits, every entry waits, numbered in order. -/
theorem State.foldl_fixEntry_waiting (body : ReplyBody) :
    ∀ (es : List ParkedEntry) (s : State), s.LinksDistinct → es.Nodup → (∀ e ∈ es, e ∈ s.parked) →
      (s.replySlot && !s.outcomeWaiting) = false →
      es.foldl (State.fixEntry body) s = { s with
        parked := s.parked.map fun p =>
          if p ∈ es then { p with outcome := .fixed (s.nextFix + es.idxOf p) body } else p
        nextFix := s.nextFix + es.length } := by
  intro es
  induction es with
  | nil => intro s _ _ _ _; simp
  | cons e es ih =>
    intro s hl hn hm hw
    obtain ⟨he, hn⟩ := List.nodup_cons.1 hn
    have hep : e ∈ s.parked := hm e List.mem_cons_self
    have one : s.fixEntry body e = s.markFixed e.link body := by simp [State.fixEntry, hw]
    have other : ∀ x ∈ es, x.link ≠ e.link := fun x hx c =>
      he (hl.eq_of_link (hm x (List.mem_cons_of_mem _ hx)) hep c ▸ hx)
    have hw' : ((s.markFixed e.link body).replySlot && !(s.markFixed e.link body).outcomeWaiting) = false := by
      have : (s.markFixed e.link body).outcomeWaiting = true := by
        refine List.any_eq_true.2 ⟨_, List.mem_map.2 ⟨e, hep, rfl⟩, ?_⟩
        simp [ParkedEntry.awaited]
      simp [this]
    have hm' : ∀ x ∈ es, x ∈ (s.markFixed e.link body).parked := fun x hx =>
      List.mem_map.2 ⟨x, hm x (List.mem_cons_of_mem _ hx), by simp [other x hx]⟩
    rw [List.foldl_cons, one, ih _ (State.markFixed_links hl _ _) hn hm' hw']
    have parked : ((s.markFixed e.link body).parked.map fun p =>
          if p ∈ es then { p with outcome := .fixed ((s.markFixed e.link body).nextFix + es.idxOf p) body } else p) =
        s.parked.map fun p =>
          if p ∈ e :: es then { p with outcome := .fixed (s.nextFix + (e :: es).idxOf p) body } else p := by
      simp only [State.markFixed, List.map_map]
      refine List.map_congr_left fun p hp => ?_
      by_cases c : p.link = e.link
      · obtain rfl := hl.eq_of_link hp hep c
        have : ({ p with outcome := .fixed s.nextFix body } : ParkedEntry) ∉ es := fun x => other _ x rfl
        simp [this]
      · have ne : p ≠ e := fun x => c (x ▸ rfl)
        by_cases m : p ∈ es
        · simp [c, m, ne, List.idxOf_cons_ne _ (Ne.symm ne), Nat.add_comm, Nat.add_left_comm]
        · simp [c, m, ne]
    rw [parked]
    simp [State.markFixed, Nat.add_comm, Nat.add_left_comm]

/-- With no outcome waiting, the entries take the free slots in order, and the others wait, numbered in order. -/
theorem State.foldl_fixEntry (body : ReplyBody) :
    ∀ (es : List ParkedEntry) (s : State), s.LinksDistinct → es.Nodup → (∀ e ∈ es, e ∈ s.parked) →
      s.outcomeWaiting = false →
      es.foldl (State.fixEntry body) s = { s with
        replies := s.replies ++ (es.take (8 - s.replies.length)).map fun p => ⟨p.tag, p.command.code, body⟩
        parked := (s.parked.filter fun p => p ∉ es.take (8 - s.replies.length)).map fun p =>
          if p ∈ es.drop (8 - s.replies.length) then
            { p with outcome := .fixed (s.nextFix + (es.drop (8 - s.replies.length)).idxOf p) body }
          else p
        nextFix := s.nextFix + (es.drop (8 - s.replies.length)).length } := by
  intro es
  induction es with
  | nil => intro s _ _ _ _; simp
  | cons e es ih =>
    intro s hl hn hm hw
    have hep : e ∈ s.parked := hm e List.mem_cons_self
    by_cases slot : s.replySlot = true
    · obtain ⟨he, hn⟩ := List.nodup_cons.1 hn
      have other : ∀ x ∈ es, x.link ≠ e.link := fun x hx c =>
        he (hl.eq_of_link (hm x (List.mem_cons_of_mem _ hx)) hep c ▸ hx)
      obtain ⟨k, hk⟩ : ∃ k, 8 - s.replies.length = k + 1 := by
        simp only [State.replySlot, Config.replyCapacity, decide_eq_true_eq] at slot
        exact ⟨8 - s.replies.length - 1, by omega⟩
      let t := (s.unpark e.link).queueReply ⟨e.tag, e.command.code, body⟩
      have one : s.fixEntry body e = t := by simp [State.fixEntry, slot, hw, t]
      have hk' : 8 - t.replies.length = k := by
        simp only [t, State.queueReply, State.unpark, List.length_append, List.length_singleton]; omega
      have hl' : t.LinksDistinct := hl.sublist (List.filter_sublist.map _)
      have hm' : ∀ x ∈ es, x ∈ t.parked := fun x hx =>
        List.mem_filter.2 ⟨hm x (List.mem_cons_of_mem _ hx), by simp [other x hx]⟩
      have hw' : t.outcomeWaiting = false := by
        simp only [State.outcomeWaiting, List.any_eq_false] at hw ⊢
        exact fun x hx => hw x (List.mem_filter.1 hx).1
      have parked : (t.parked.filter fun p => p ∉ es.take k) = s.parked.filter fun p => p ∉ (e :: es).take (k + 1) := by
        simp only [t, State.queueReply, State.unpark, List.filter_filter]
        refine List.filter_congr fun p hp => ?_
        by_cases c : p = e
        · simp [c]
        · have : p.link ≠ e.link := fun x => c (hl.eq_of_link hp hep x)
          simp [c, this]
      rw [List.foldl_cons, one, ih t hl' hn hm' hw', hk', parked, hk]
      simp [t, State.queueReply, State.unpark]
    · have none : 8 - s.replies.length = 0 := by
        simp only [State.replySlot, Config.replyCapacity, decide_eq_true_eq] at slot; omega
      rw [State.foldl_fixEntry_waiting body _ s hl hn hm (by simp [slot]), none]
      simp

/-- Fixing the awaited PAUSEs at one event is what R164 says of them. -/
theorem State.fixOutcomes_isPause {s : State} (h : s.LinksDistinct) (body : ReplyBody) :
    s.fixOutcomes ParkedEntry.isPause body = s.answerPauses body := by
  let pauses := s.parked.filter fun p => p.isPause && p.awaited
  have hf : s.fixOutcomes ParkedEntry.isPause body = pauses.foldl (State.fixEntry body) s := by
    simp only [State.fixOutcomes, pauses, Bool.and_comm]
  have hn : pauses.Nodup := (List.Nodup.of_map _ h).filter _
  have hm : ∀ e ∈ pauses, e ∈ s.parked := fun e he => (List.mem_filter.1 he).1
  have code : ∀ l : List ParkedEntry, (∀ e ∈ l, e ∈ pauses) →
      (l.map fun p => (⟨p.tag, p.command.code, body⟩ : Reply)) = l.map fun p => ⟨p.tag, 0x21, body⟩ := fun l hl =>
    List.map_congr_left fun p hp => by
      have : p.command = .pause := by
        have := (List.mem_filter.1 (hl p hp)).2
        simp only [ParkedEntry.isPause, Bool.and_eq_true, decide_eq_true_eq] at this
        exact this.1
      rw [this]; rfl
  rw [hf]
  by_cases w : s.parked.all ParkedEntry.awaited = true
  · have hw : s.outcomeWaiting = false := by
      simp only [State.outcomeWaiting, List.any_eq_false, Bool.not_eq_true', Bool.not_eq_false]
      exact List.all_eq_true.1 w
    rw [State.foldl_fixEntry body _ s h hn hm hw, code _ fun e he => List.mem_of_mem_take he]
    simp only [State.answerPauses, w, if_true, pauses]
  · have hw : s.outcomeWaiting = true := by
      simp only [State.outcomeWaiting, List.any_eq_true, Bool.not_eq_true']
      simp only [List.all_eq_true, not_forall] at w
      obtain ⟨x, hx, hn⟩ := w
      exact ⟨x, hx, by simpa using hn⟩
    rw [State.foldl_fixEntry_waiting body _ s h hn hm (by simp [hw])]
    simp [State.answerPauses, w, pauses]

end Sys2Proof.Machine
end

