-- ==== Sys2Proof/Laws/Tick.lean ====
section
/-! SUPPORT. What the work of a tick, of a receipt and of a counted completion may touch. -/

namespace Sys2Proof.Machine

/-! ### The tick -/

/-- An overrun touches the probe and the notice queue alone. -/
theorem State.countOverrun_frame (s : State) (i : Fin 32) (d : Definition) :
    s.countOverrun i d = { s with
      probes := (s.countOverrun i d).probes
      notices := (s.countOverrun i d).notices
      nextSeq := (s.countOverrun i d).nextSeq
      gapAcc := (s.countOverrun i d).gapAcc
      dropped := (s.countOverrun i d).dropped } := by
  by_cases h : (d.notify.overrun && !(s.probe i).overrunLatch) = true
  · have e : s.countOverrun i d = (s.setProbe i { s.probe i with
        overruns := satInc (s.probe i).overruns, overrunLatch := true }).submit
          (.overrun i (s.probe i).generation (satInc (s.probe i).overruns)) := by
      unfold State.countOverrun; exact if_pos h
    rw [e, State.submit_frame]; rfl
  · have e : s.countOverrun i d = s.setProbe i { s.probe i with overruns := satInc (s.probe i).overruns } := by
      unfold State.countOverrun; exact if_neg h
    rw [e]; rfl

@[simp] theorem State.countOverrun_counter (s : State) (i : Fin 32) (d : Definition) : (s.countOverrun i d).counter = s.counter := by
  rw [State.countOverrun_frame]
@[simp] theorem State.countOverrun_divider (s : State) (i : Fin 32) (d : Definition) : (s.countOverrun i d).divider = s.divider := by
  rw [State.countOverrun_frame]
@[simp] theorem State.countOverrun_elapsed (s : State) (i : Fin 32) (d : Definition) : (s.countOverrun i d).elapsed = s.elapsed := by
  rw [State.countOverrun_frame]
@[simp] theorem State.countOverrun_scheduler (s : State) (i : Fin 32) (d : Definition) : (s.countOverrun i d).scheduler = s.scheduler := by
  rw [State.countOverrun_frame]
@[simp] theorem State.countOverrun_freeCount (s : State) (i : Fin 32) (d : Definition) : (s.countOverrun i d).freeCount = s.freeCount := by
  rw [State.countOverrun_frame]
@[simp] theorem State.countOverrun_dueQueue (s : State) (i : Fin 32) (d : Definition) : (s.countOverrun i d).dueQueue = s.dueQueue := by
  rw [State.countOverrun_frame]
@[simp] theorem State.countOverrun_engine (s : State) (i : Fin 32) (d : Definition) : (s.countOverrun i d).engine = s.engine := by
  rw [State.countOverrun_frame]
@[simp] theorem State.countOverrun_health (s : State) (i : Fin 32) (d : Definition) : (s.countOverrun i d).health = s.health := by
  rw [State.countOverrun_frame]
@[simp] theorem State.countOverrun_tolerance (s : State) (i : Fin 32) (d : Definition) : (s.countOverrun i d).tolerance = s.tolerance := by
  rw [State.countOverrun_frame]
@[simp] theorem State.countOverrun_holdSet (s : State) (i : Fin 32) (d : Definition) : (s.countOverrun i d).holdSet = s.holdSet := by
  rw [State.countOverrun_frame]
@[simp] theorem State.countOverrun_receiver (s : State) (i : Fin 32) (d : Definition) : (s.countOverrun i d).receiver = s.receiver := by
  rw [State.countOverrun_frame]
@[simp] theorem State.countOverrun_transmitter (s : State) (i : Fin 32) (d : Definition) : (s.countOverrun i d).transmitter = s.transmitter := by
  rw [State.countOverrun_frame]
@[simp] theorem State.countOverrun_mute (s : State) (i : Fin 32) (d : Definition) : (s.countOverrun i d).mute = s.mute := by
  rw [State.countOverrun_frame]
@[simp] theorem State.countOverrun_ackTimeout (s : State) (i : Fin 32) (d : Definition) : (s.countOverrun i d).ackTimeout = s.ackTimeout := by
  rw [State.countOverrun_frame]
@[simp] theorem State.countOverrun_rate (s : State) (i : Fin 32) (d : Definition) : (s.countOverrun i d).rate = s.rate := by
  rw [State.countOverrun_frame]
@[simp] theorem State.countOverrun_counters (s : State) (i : Fin 32) (d : Definition) : (s.countOverrun i d).counters = s.counters := by
  rw [State.countOverrun_frame]
@[simp] theorem State.countOverrun_rxdHigh (s : State) (i : Fin 32) (d : Definition) : (s.countOverrun i d).rxdHigh = s.rxdHigh := by
  rw [State.countOverrun_frame]
@[simp] theorem State.countOverrun_inbox (s : State) (i : Fin 32) (d : Definition) : (s.countOverrun i d).inbox = s.inbox := by
  rw [State.countOverrun_frame]
@[simp] theorem State.countOverrun_parked (s : State) (i : Fin 32) (d : Definition) : (s.countOverrun i d).parked = s.parked := by
  rw [State.countOverrun_frame]
@[simp] theorem State.countOverrun_replies (s : State) (i : Fin 32) (d : Definition) : (s.countOverrun i d).replies = s.replies := by
  rw [State.countOverrun_frame]
@[simp] theorem State.countOverrun_softResetPending (s : State) (i : Fin 32) (d : Definition) : (s.countOverrun i d).softResetPending = s.softResetPending := by
  rw [State.countOverrun_frame]
@[simp] theorem State.countOverrun_resetCause (s : State) (i : Fin 32) (d : Definition) : (s.countOverrun i d).resetCause = s.resetCause := by
  rw [State.countOverrun_frame]
@[simp] theorem State.countOverrun_powerReset (s : State) (i : Fin 32) (d : Definition) : (s.countOverrun i d).powerReset = s.powerReset := by
  rw [State.countOverrun_frame]
@[simp] theorem State.countOverrun_pinReset (s : State) (i : Fin 32) (d : Definition) : (s.countOverrun i d).pinReset = s.pinReset := by
  rw [State.countOverrun_frame]
@[simp] theorem State.countOverrun_inReset (s : State) (i : Fin 32) (d : Definition) : (s.countOverrun i d).inReset = s.inReset := by
  simp [State.inReset]
@[simp] theorem State.countOverrun_nextLink (s : State) (i : Fin 32) (d : Definition) : (s.countOverrun i d).nextLink = s.nextLink := by
  rw [State.countOverrun_frame]
@[simp] theorem State.countOverrun_nextFix (s : State) (i : Fin 32) (d : Definition) : (s.countOverrun i d).nextFix = s.nextFix := by
  rw [State.countOverrun_frame]
@[simp] theorem State.countOverrun_owed (s : State) (i : Fin 32) (d : Definition) : (s.countOverrun i d).owed = s.owed := by
  rw [State.countOverrun_frame]
@[simp] theorem State.countOverrun_pending (s : State) (i : Fin 32) (d : Definition) : (s.countOverrun i d).pending = s.pending := by
  rw [State.countOverrun_frame]

/-- A visit of the due check finds nothing due, counts an overrun, or queues an entry (R35). -/
theorem State.dueVisit_cases (s : State) (i : Fin 32) :
    s.dueVisit i = s ∨
    (∃ d, (s.DueNow i d ∧ s.runOutstanding i = true) ∧ s.dueVisit i = (s.countOverrun i d).advanceDue i d) ∨
    (∃ d, (s.DueNow i d ∧ s.runOutstanding i = false) ∧ s.dueVisit i = (s.queueScheduled i false).advanceDue i d) := by
  unfold State.dueVisit State.DueNow
  dsimp only
  split
  · rename_i d h1 h2
    split
    · rename_i h3
      by_cases h : s.runOutstanding i = true
      · exact .inr (.inl ⟨d, ⟨⟨h1, h2, h3⟩, h⟩, by rw [if_pos h]⟩)
      · exact .inr (.inr ⟨d, ⟨⟨h1, h2, h3⟩, by simpa using h⟩, by rw [if_neg h]⟩)
    · exact .inl rfl
  · exact .inl rfl

/-- A visit of the due check touches the probes, the due queue and the notice queue alone. -/
theorem State.dueVisit_frame (s : State) (i : Fin 32) :
    s.dueVisit i = { s with
      probes := (s.dueVisit i).probes
      dueQueue := (s.dueVisit i).dueQueue
      notices := (s.dueVisit i).notices
      nextSeq := (s.dueVisit i).nextSeq
      gapAcc := (s.dueVisit i).gapAcc
      dropped := (s.dueVisit i).dropped } := by
  rcases s.dueVisit_cases i with h | ⟨d, -, h⟩ | ⟨d, -, h⟩ <;> rw [h]
  · unfold State.advanceDue
    rw [State.countOverrun_frame]; rfl
  · rfl

@[simp] theorem State.dueVisit_counter (s : State) (i : Fin 32) : (s.dueVisit i).counter = s.counter := by
  rw [State.dueVisit_frame]
@[simp] theorem State.dueVisit_divider (s : State) (i : Fin 32) : (s.dueVisit i).divider = s.divider := by
  rw [State.dueVisit_frame]
@[simp] theorem State.dueVisit_elapsed (s : State) (i : Fin 32) : (s.dueVisit i).elapsed = s.elapsed := by
  rw [State.dueVisit_frame]
@[simp] theorem State.dueVisit_scheduler (s : State) (i : Fin 32) : (s.dueVisit i).scheduler = s.scheduler := by
  rw [State.dueVisit_frame]
@[simp] theorem State.dueVisit_freeCount (s : State) (i : Fin 32) : (s.dueVisit i).freeCount = s.freeCount := by
  rw [State.dueVisit_frame]
@[simp] theorem State.dueVisit_engine (s : State) (i : Fin 32) : (s.dueVisit i).engine = s.engine := by
  rw [State.dueVisit_frame]
@[simp] theorem State.dueVisit_health (s : State) (i : Fin 32) : (s.dueVisit i).health = s.health := by
  rw [State.dueVisit_frame]
@[simp] theorem State.dueVisit_tolerance (s : State) (i : Fin 32) : (s.dueVisit i).tolerance = s.tolerance := by
  rw [State.dueVisit_frame]
@[simp] theorem State.dueVisit_holdSet (s : State) (i : Fin 32) : (s.dueVisit i).holdSet = s.holdSet := by
  rw [State.dueVisit_frame]
@[simp] theorem State.dueVisit_receiver (s : State) (i : Fin 32) : (s.dueVisit i).receiver = s.receiver := by
  rw [State.dueVisit_frame]
@[simp] theorem State.dueVisit_transmitter (s : State) (i : Fin 32) : (s.dueVisit i).transmitter = s.transmitter := by
  rw [State.dueVisit_frame]
@[simp] theorem State.dueVisit_mute (s : State) (i : Fin 32) : (s.dueVisit i).mute = s.mute := by
  rw [State.dueVisit_frame]
@[simp] theorem State.dueVisit_ackTimeout (s : State) (i : Fin 32) : (s.dueVisit i).ackTimeout = s.ackTimeout := by
  rw [State.dueVisit_frame]
@[simp] theorem State.dueVisit_rate (s : State) (i : Fin 32) : (s.dueVisit i).rate = s.rate := by
  rw [State.dueVisit_frame]
@[simp] theorem State.dueVisit_counters (s : State) (i : Fin 32) : (s.dueVisit i).counters = s.counters := by
  rw [State.dueVisit_frame]
@[simp] theorem State.dueVisit_rxdHigh (s : State) (i : Fin 32) : (s.dueVisit i).rxdHigh = s.rxdHigh := by
  rw [State.dueVisit_frame]
@[simp] theorem State.dueVisit_inbox (s : State) (i : Fin 32) : (s.dueVisit i).inbox = s.inbox := by
  rw [State.dueVisit_frame]
@[simp] theorem State.dueVisit_parked (s : State) (i : Fin 32) : (s.dueVisit i).parked = s.parked := by
  rw [State.dueVisit_frame]
@[simp] theorem State.dueVisit_replies (s : State) (i : Fin 32) : (s.dueVisit i).replies = s.replies := by
  rw [State.dueVisit_frame]
@[simp] theorem State.dueVisit_softResetPending (s : State) (i : Fin 32) : (s.dueVisit i).softResetPending = s.softResetPending := by
  rw [State.dueVisit_frame]
@[simp] theorem State.dueVisit_resetCause (s : State) (i : Fin 32) : (s.dueVisit i).resetCause = s.resetCause := by
  rw [State.dueVisit_frame]
@[simp] theorem State.dueVisit_powerReset (s : State) (i : Fin 32) : (s.dueVisit i).powerReset = s.powerReset := by
  rw [State.dueVisit_frame]
@[simp] theorem State.dueVisit_pinReset (s : State) (i : Fin 32) : (s.dueVisit i).pinReset = s.pinReset := by
  rw [State.dueVisit_frame]
@[simp] theorem State.dueVisit_inReset (s : State) (i : Fin 32) : (s.dueVisit i).inReset = s.inReset := by
  simp [State.inReset]
@[simp] theorem State.dueVisit_nextLink (s : State) (i : Fin 32) : (s.dueVisit i).nextLink = s.nextLink := by
  rw [State.dueVisit_frame]
@[simp] theorem State.dueVisit_nextFix (s : State) (i : Fin 32) : (s.dueVisit i).nextFix = s.nextFix := by
  rw [State.dueVisit_frame]
@[simp] theorem State.dueVisit_owed (s : State) (i : Fin 32) : (s.dueVisit i).owed = s.owed := by
  rw [State.dueVisit_frame]
@[simp] theorem State.dueVisit_pending (s : State) (i : Fin 32) : (s.dueVisit i).pending = s.pending := by
  rw [State.dueVisit_frame]

/-- So does the due check. -/
theorem State.dueCheckNow_frame (s : State) :
    s.dueCheckNow = { s with
      probes := (s.dueCheckNow).probes
      dueQueue := (s.dueCheckNow).dueQueue
      notices := (s.dueCheckNow).notices
      nextSeq := (s.dueCheckNow).nextSeq
      gapAcc := (s.dueCheckNow).gapAcc
      dropped := (s.dueCheckNow).dropped } := by
  have key : ∀ (l : List (Fin 32)) (u : State), l.foldl State.dueVisit u = { u with
      probes := (l.foldl State.dueVisit u).probes
      dueQueue := (l.foldl State.dueVisit u).dueQueue
      notices := (l.foldl State.dueVisit u).notices
      nextSeq := (l.foldl State.dueVisit u).nextSeq
      gapAcc := (l.foldl State.dueVisit u).gapAcc
      dropped := (l.foldl State.dueVisit u).dropped } := by
    intro l
    induction l with
    | nil => intro u; rfl
    | cons i l ih =>
      intro u
      have h := ih (u.dueVisit i)
      simp only [State.dueVisit_counter, State.dueVisit_divider, State.dueVisit_elapsed, State.dueVisit_scheduler,
        State.dueVisit_freeCount, State.dueVisit_engine, State.dueVisit_health, State.dueVisit_tolerance,
        State.dueVisit_holdSet, State.dueVisit_receiver, State.dueVisit_transmitter, State.dueVisit_mute,
        State.dueVisit_ackTimeout, State.dueVisit_rate, State.dueVisit_counters, State.dueVisit_rxdHigh,
        State.dueVisit_inbox, State.dueVisit_parked, State.dueVisit_replies, State.dueVisit_softResetPending,
        State.dueVisit_resetCause, State.dueVisit_powerReset, State.dueVisit_pinReset, State.dueVisit_nextLink, State.dueVisit_nextFix, State.dueVisit_owed,
        State.dueVisit_pending] at h
      exact h
  generalize h : s.dueCheckNow = t
  unfold State.dueCheckNow at h; split at h <;> subst h
  · exact key _ s
  · rfl

@[simp] theorem State.dueCheckNow_counter (s : State) : (s.dueCheckNow).counter = s.counter := by
  rw [State.dueCheckNow_frame]
@[simp] theorem State.dueCheckNow_divider (s : State) : (s.dueCheckNow).divider = s.divider := by
  rw [State.dueCheckNow_frame]
@[simp] theorem State.dueCheckNow_elapsed (s : State) : (s.dueCheckNow).elapsed = s.elapsed := by
  rw [State.dueCheckNow_frame]
@[simp] theorem State.dueCheckNow_scheduler (s : State) : (s.dueCheckNow).scheduler = s.scheduler := by
  rw [State.dueCheckNow_frame]
@[simp] theorem State.dueCheckNow_freeCount (s : State) : (s.dueCheckNow).freeCount = s.freeCount := by
  rw [State.dueCheckNow_frame]
@[simp] theorem State.dueCheckNow_engine (s : State) : (s.dueCheckNow).engine = s.engine := by
  rw [State.dueCheckNow_frame]
@[simp] theorem State.dueCheckNow_health (s : State) : (s.dueCheckNow).health = s.health := by
  rw [State.dueCheckNow_frame]
@[simp] theorem State.dueCheckNow_tolerance (s : State) : (s.dueCheckNow).tolerance = s.tolerance := by
  rw [State.dueCheckNow_frame]
@[simp] theorem State.dueCheckNow_holdSet (s : State) : (s.dueCheckNow).holdSet = s.holdSet := by
  rw [State.dueCheckNow_frame]
@[simp] theorem State.dueCheckNow_receiver (s : State) : (s.dueCheckNow).receiver = s.receiver := by
  rw [State.dueCheckNow_frame]
@[simp] theorem State.dueCheckNow_transmitter (s : State) : (s.dueCheckNow).transmitter = s.transmitter := by
  rw [State.dueCheckNow_frame]
@[simp] theorem State.dueCheckNow_mute (s : State) : (s.dueCheckNow).mute = s.mute := by rw [State.dueCheckNow_frame]
@[simp] theorem State.dueCheckNow_ackTimeout (s : State) : (s.dueCheckNow).ackTimeout = s.ackTimeout := by
  rw [State.dueCheckNow_frame]
@[simp] theorem State.dueCheckNow_rate (s : State) : (s.dueCheckNow).rate = s.rate := by rw [State.dueCheckNow_frame]
@[simp] theorem State.dueCheckNow_counters (s : State) : (s.dueCheckNow).counters = s.counters := by
  rw [State.dueCheckNow_frame]
@[simp] theorem State.dueCheckNow_rxdHigh (s : State) : (s.dueCheckNow).rxdHigh = s.rxdHigh := by
  rw [State.dueCheckNow_frame]
@[simp] theorem State.dueCheckNow_inbox (s : State) : (s.dueCheckNow).inbox = s.inbox := by
  rw [State.dueCheckNow_frame]
@[simp] theorem State.dueCheckNow_parked (s : State) : (s.dueCheckNow).parked = s.parked := by
  rw [State.dueCheckNow_frame]
@[simp] theorem State.dueCheckNow_replies (s : State) : (s.dueCheckNow).replies = s.replies := by
  rw [State.dueCheckNow_frame]
@[simp] theorem State.dueCheckNow_softResetPending (s : State) : (s.dueCheckNow).softResetPending = s.softResetPending := by
  rw [State.dueCheckNow_frame]
@[simp] theorem State.dueCheckNow_resetCause (s : State) : (s.dueCheckNow).resetCause = s.resetCause := by
  rw [State.dueCheckNow_frame]
@[simp] theorem State.dueCheckNow_powerReset (s : State) : (s.dueCheckNow).powerReset = s.powerReset := by
  rw [State.dueCheckNow_frame]
@[simp] theorem State.dueCheckNow_pinReset (s : State) : (s.dueCheckNow).pinReset = s.pinReset := by
  rw [State.dueCheckNow_frame]
@[simp] theorem State.dueCheckNow_inReset (s : State) : (s.dueCheckNow).inReset = s.inReset := by
  simp [State.inReset]
@[simp] theorem State.dueCheckNow_nextLink (s : State) : (s.dueCheckNow).nextLink = s.nextLink := by
  rw [State.dueCheckNow_frame]
@[simp] theorem State.dueCheckNow_nextFix (s : State) : (s.dueCheckNow).nextFix = s.nextFix := by
  rw [State.dueCheckNow_frame]
@[simp] theorem State.dueCheckNow_owed (s : State) : (s.dueCheckNow).owed = s.owed := by rw [State.dueCheckNow_frame]
@[simp] theorem State.dueCheckNow_pending (s : State) : (s.dueCheckNow).pending = s.pending := by
  rw [State.dueCheckNow_frame]

/-- The due check, if owed, and what is then no longer owed. -/
theorem State.runDueCheck_frame (s : State) :
    s.runDueCheck = { s with
      probes := (s.runDueCheck).probes
      dueQueue := (s.runDueCheck).dueQueue
      notices := (s.runDueCheck).notices
      nextSeq := (s.runDueCheck).nextSeq
      gapAcc := (s.runDueCheck).gapAcc
      dropped := (s.runDueCheck).dropped
      owed := (s.runDueCheck).owed } := by
  generalize h : s.runDueCheck = t
  unfold State.runDueCheck at h; split at h <;> subst h
  · rw [State.dueCheckNow_frame]
  · rfl

@[simp] theorem State.runDueCheck_counter (s : State) : (s.runDueCheck).counter = s.counter := by
  rw [State.runDueCheck_frame]
@[simp] theorem State.runDueCheck_divider (s : State) : (s.runDueCheck).divider = s.divider := by
  rw [State.runDueCheck_frame]
@[simp] theorem State.runDueCheck_elapsed (s : State) : (s.runDueCheck).elapsed = s.elapsed := by
  rw [State.runDueCheck_frame]
@[simp] theorem State.runDueCheck_scheduler (s : State) : (s.runDueCheck).scheduler = s.scheduler := by
  rw [State.runDueCheck_frame]
@[simp] theorem State.runDueCheck_freeCount (s : State) : (s.runDueCheck).freeCount = s.freeCount := by
  rw [State.runDueCheck_frame]
@[simp] theorem State.runDueCheck_engine (s : State) : (s.runDueCheck).engine = s.engine := by
  rw [State.runDueCheck_frame]
@[simp] theorem State.runDueCheck_health (s : State) : (s.runDueCheck).health = s.health := by
  rw [State.runDueCheck_frame]
@[simp] theorem State.runDueCheck_tolerance (s : State) : (s.runDueCheck).tolerance = s.tolerance := by
  rw [State.runDueCheck_frame]
@[simp] theorem State.runDueCheck_holdSet (s : State) : (s.runDueCheck).holdSet = s.holdSet := by
  rw [State.runDueCheck_frame]
@[simp] theorem State.runDueCheck_receiver (s : State) : (s.runDueCheck).receiver = s.receiver := by
  rw [State.runDueCheck_frame]
@[simp] theorem State.runDueCheck_transmitter (s : State) : (s.runDueCheck).transmitter = s.transmitter := by
  rw [State.runDueCheck_frame]
@[simp] theorem State.runDueCheck_mute (s : State) : (s.runDueCheck).mute = s.mute := by rw [State.runDueCheck_frame]
@[simp] theorem State.runDueCheck_ackTimeout (s : State) : (s.runDueCheck).ackTimeout = s.ackTimeout := by
  rw [State.runDueCheck_frame]
@[simp] theorem State.runDueCheck_rate (s : State) : (s.runDueCheck).rate = s.rate := by rw [State.runDueCheck_frame]
@[simp] theorem State.runDueCheck_counters (s : State) : (s.runDueCheck).counters = s.counters := by
  rw [State.runDueCheck_frame]
@[simp] theorem State.runDueCheck_rxdHigh (s : State) : (s.runDueCheck).rxdHigh = s.rxdHigh := by
  rw [State.runDueCheck_frame]
@[simp] theorem State.runDueCheck_inbox (s : State) : (s.runDueCheck).inbox = s.inbox := by
  rw [State.runDueCheck_frame]
@[simp] theorem State.runDueCheck_parked (s : State) : (s.runDueCheck).parked = s.parked := by
  rw [State.runDueCheck_frame]
@[simp] theorem State.runDueCheck_replies (s : State) : (s.runDueCheck).replies = s.replies := by
  rw [State.runDueCheck_frame]
@[simp] theorem State.runDueCheck_softResetPending (s : State) : (s.runDueCheck).softResetPending = s.softResetPending := by
  rw [State.runDueCheck_frame]
@[simp] theorem State.runDueCheck_resetCause (s : State) : (s.runDueCheck).resetCause = s.resetCause := by
  rw [State.runDueCheck_frame]
@[simp] theorem State.runDueCheck_powerReset (s : State) : (s.runDueCheck).powerReset = s.powerReset := by
  rw [State.runDueCheck_frame]
@[simp] theorem State.runDueCheck_pinReset (s : State) : (s.runDueCheck).pinReset = s.pinReset := by
  rw [State.runDueCheck_frame]
@[simp] theorem State.runDueCheck_inReset (s : State) : (s.runDueCheck).inReset = s.inReset := by
  simp [State.inReset]
@[simp] theorem State.runDueCheck_nextLink (s : State) : (s.runDueCheck).nextLink = s.nextLink := by
  rw [State.runDueCheck_frame]
@[simp] theorem State.runDueCheck_nextFix (s : State) : (s.runDueCheck).nextFix = s.nextFix := by
  rw [State.runDueCheck_frame]
@[simp] theorem State.runDueCheck_pending (s : State) : (s.runDueCheck).pending = s.pending := by
  rw [State.runDueCheck_frame]

/-- The timeout examination touches the notices and MUTE alone. -/
theorem State.runTimeouts_frame (s : State) :
    s.runTimeouts = { s with
      notices := (s.runTimeouts).notices
      mute := (s.runTimeouts).mute
      owed := (s.runTimeouts).owed } := by
  generalize h : s.runTimeouts = t
  unfold State.runTimeouts State.examineTimeouts at h; dsimp only at h; split at h
  · split at h <;> subst h <;> rfl
  · subst h; rfl

@[simp] theorem State.runTimeouts_counter (s : State) : (s.runTimeouts).counter = s.counter := by
  rw [State.runTimeouts_frame]
@[simp] theorem State.runTimeouts_divider (s : State) : (s.runTimeouts).divider = s.divider := by
  rw [State.runTimeouts_frame]
@[simp] theorem State.runTimeouts_elapsed (s : State) : (s.runTimeouts).elapsed = s.elapsed := by
  rw [State.runTimeouts_frame]
@[simp] theorem State.runTimeouts_scheduler (s : State) : (s.runTimeouts).scheduler = s.scheduler := by
  rw [State.runTimeouts_frame]
@[simp] theorem State.runTimeouts_probes (s : State) : (s.runTimeouts).probes = s.probes := by
  rw [State.runTimeouts_frame]
@[simp] theorem State.runTimeouts_freeCount (s : State) : (s.runTimeouts).freeCount = s.freeCount := by
  rw [State.runTimeouts_frame]
@[simp] theorem State.runTimeouts_dueQueue (s : State) : (s.runTimeouts).dueQueue = s.dueQueue := by
  rw [State.runTimeouts_frame]
@[simp] theorem State.runTimeouts_engine (s : State) : (s.runTimeouts).engine = s.engine := by
  rw [State.runTimeouts_frame]
@[simp] theorem State.runTimeouts_health (s : State) : (s.runTimeouts).health = s.health := by
  rw [State.runTimeouts_frame]
@[simp] theorem State.runTimeouts_tolerance (s : State) : (s.runTimeouts).tolerance = s.tolerance := by
  rw [State.runTimeouts_frame]
@[simp] theorem State.runTimeouts_nextSeq (s : State) : (s.runTimeouts).nextSeq = s.nextSeq := by
  rw [State.runTimeouts_frame]
@[simp] theorem State.runTimeouts_gapAcc (s : State) : (s.runTimeouts).gapAcc = s.gapAcc := by
  rw [State.runTimeouts_frame]
@[simp] theorem State.runTimeouts_holdSet (s : State) : (s.runTimeouts).holdSet = s.holdSet := by
  rw [State.runTimeouts_frame]
@[simp] theorem State.runTimeouts_dropped (s : State) : (s.runTimeouts).dropped = s.dropped := by
  rw [State.runTimeouts_frame]
@[simp] theorem State.runTimeouts_receiver (s : State) : (s.runTimeouts).receiver = s.receiver := by
  rw [State.runTimeouts_frame]
@[simp] theorem State.runTimeouts_transmitter (s : State) : (s.runTimeouts).transmitter = s.transmitter := by
  rw [State.runTimeouts_frame]
@[simp] theorem State.runTimeouts_ackTimeout (s : State) : (s.runTimeouts).ackTimeout = s.ackTimeout := by
  rw [State.runTimeouts_frame]
@[simp] theorem State.runTimeouts_rate (s : State) : (s.runTimeouts).rate = s.rate := by rw [State.runTimeouts_frame]
@[simp] theorem State.runTimeouts_counters (s : State) : (s.runTimeouts).counters = s.counters := by
  rw [State.runTimeouts_frame]
@[simp] theorem State.runTimeouts_rxdHigh (s : State) : (s.runTimeouts).rxdHigh = s.rxdHigh := by
  rw [State.runTimeouts_frame]
@[simp] theorem State.runTimeouts_inbox (s : State) : (s.runTimeouts).inbox = s.inbox := by
  rw [State.runTimeouts_frame]
@[simp] theorem State.runTimeouts_parked (s : State) : (s.runTimeouts).parked = s.parked := by
  rw [State.runTimeouts_frame]
@[simp] theorem State.runTimeouts_replies (s : State) : (s.runTimeouts).replies = s.replies := by
  rw [State.runTimeouts_frame]
@[simp] theorem State.runTimeouts_softResetPending (s : State) : (s.runTimeouts).softResetPending = s.softResetPending := by
  rw [State.runTimeouts_frame]
@[simp] theorem State.runTimeouts_resetCause (s : State) : (s.runTimeouts).resetCause = s.resetCause := by
  rw [State.runTimeouts_frame]
@[simp] theorem State.runTimeouts_powerReset (s : State) : (s.runTimeouts).powerReset = s.powerReset := by
  rw [State.runTimeouts_frame]
@[simp] theorem State.runTimeouts_pinReset (s : State) : (s.runTimeouts).pinReset = s.pinReset := by
  rw [State.runTimeouts_frame]
@[simp] theorem State.runTimeouts_inReset (s : State) : (s.runTimeouts).inReset = s.inReset := by
  simp [State.inReset]
@[simp] theorem State.runTimeouts_nextLink (s : State) : (s.runTimeouts).nextLink = s.nextLink := by
  rw [State.runTimeouts_frame]
@[simp] theorem State.runTimeouts_nextFix (s : State) : (s.runTimeouts).nextFix = s.nextFix := by
  rw [State.runTimeouts_frame]
@[simp] theorem State.runTimeouts_pending (s : State) : (s.runTimeouts).pending = s.pending := by
  rw [State.runTimeouts_frame]

@[simp] theorem State.runTimeouts_probe (s : State) (j : Fin 32) : (s.runTimeouts).probe j = s.probe j := by
  simp [State.probe]

/-- The receiver's examination touches the receiver and its counter alone. -/
theorem State.runGap_frame (s : State) :
    s.runGap = { s with
      receiver := (s.runGap).receiver
      counters := (s.runGap).counters
      owed := (s.runGap).owed } := by
  generalize h : s.runGap = t
  unfold State.runGap State.examineGap at h; dsimp only at h; split at h
  · split at h
    · subst h; rfl
    · split at h <;> subst h <;> rfl
    · split at h <;> subst h <;> rfl
  · subst h; rfl

@[simp] theorem State.runGap_counter (s : State) : (s.runGap).counter = s.counter := by rw [State.runGap_frame]
@[simp] theorem State.runGap_divider (s : State) : (s.runGap).divider = s.divider := by rw [State.runGap_frame]
@[simp] theorem State.runGap_elapsed (s : State) : (s.runGap).elapsed = s.elapsed := by rw [State.runGap_frame]
@[simp] theorem State.runGap_scheduler (s : State) : (s.runGap).scheduler = s.scheduler := by rw [State.runGap_frame]
@[simp] theorem State.runGap_probes (s : State) : (s.runGap).probes = s.probes := by rw [State.runGap_frame]
@[simp] theorem State.runGap_freeCount (s : State) : (s.runGap).freeCount = s.freeCount := by rw [State.runGap_frame]
@[simp] theorem State.runGap_dueQueue (s : State) : (s.runGap).dueQueue = s.dueQueue := by rw [State.runGap_frame]
@[simp] theorem State.runGap_engine (s : State) : (s.runGap).engine = s.engine := by rw [State.runGap_frame]
@[simp] theorem State.runGap_health (s : State) : (s.runGap).health = s.health := by rw [State.runGap_frame]
@[simp] theorem State.runGap_tolerance (s : State) : (s.runGap).tolerance = s.tolerance := by rw [State.runGap_frame]
@[simp] theorem State.runGap_notices (s : State) : (s.runGap).notices = s.notices := by rw [State.runGap_frame]
@[simp] theorem State.runGap_nextSeq (s : State) : (s.runGap).nextSeq = s.nextSeq := by rw [State.runGap_frame]
@[simp] theorem State.runGap_gapAcc (s : State) : (s.runGap).gapAcc = s.gapAcc := by rw [State.runGap_frame]
@[simp] theorem State.runGap_holdSet (s : State) : (s.runGap).holdSet = s.holdSet := by rw [State.runGap_frame]
@[simp] theorem State.runGap_dropped (s : State) : (s.runGap).dropped = s.dropped := by rw [State.runGap_frame]
@[simp] theorem State.runGap_transmitter (s : State) : (s.runGap).transmitter = s.transmitter := by
  rw [State.runGap_frame]
@[simp] theorem State.runGap_mute (s : State) : (s.runGap).mute = s.mute := by rw [State.runGap_frame]
@[simp] theorem State.runGap_ackTimeout (s : State) : (s.runGap).ackTimeout = s.ackTimeout := by
  rw [State.runGap_frame]
@[simp] theorem State.runGap_rate (s : State) : (s.runGap).rate = s.rate := by rw [State.runGap_frame]
@[simp] theorem State.runGap_rxdHigh (s : State) : (s.runGap).rxdHigh = s.rxdHigh := by rw [State.runGap_frame]
@[simp] theorem State.runGap_inbox (s : State) : (s.runGap).inbox = s.inbox := by rw [State.runGap_frame]
@[simp] theorem State.runGap_parked (s : State) : (s.runGap).parked = s.parked := by rw [State.runGap_frame]
@[simp] theorem State.runGap_replies (s : State) : (s.runGap).replies = s.replies := by rw [State.runGap_frame]
@[simp] theorem State.runGap_softResetPending (s : State) : (s.runGap).softResetPending = s.softResetPending := by
  rw [State.runGap_frame]
@[simp] theorem State.runGap_resetCause (s : State) : (s.runGap).resetCause = s.resetCause := by
  rw [State.runGap_frame]
@[simp] theorem State.runGap_powerReset (s : State) : (s.runGap).powerReset = s.powerReset := by rw [State.runGap_frame]
@[simp] theorem State.runGap_pinReset (s : State) : (s.runGap).pinReset = s.pinReset := by rw [State.runGap_frame]
@[simp] theorem State.runGap_inReset (s : State) : (s.runGap).inReset = s.inReset := by
  simp [State.inReset]
@[simp] theorem State.runGap_nextLink (s : State) : (s.runGap).nextLink = s.nextLink := by rw [State.runGap_frame]
@[simp] theorem State.runGap_nextFix (s : State) : (s.runGap).nextFix = s.nextFix := by rw [State.runGap_frame]
@[simp] theorem State.runGap_pending (s : State) : (s.runGap).pending = s.pending := by rw [State.runGap_frame]

@[simp] theorem State.runGap_probe (s : State) (j : Fin 32) : (s.runGap).probe j = s.probe j := by
  simp [State.probe]

/-- A receipt touches MUTE, the notices, the reply queue, the inbox and the overflow counter alone. -/
theorem State.receive_frame (s : State) (kind tag : Byte) (payload : List Byte) :
    s.receive kind tag payload = { s with
      mute := (s.receive kind tag payload).mute
      notices := (s.receive kind tag payload).notices
      replies := (s.receive kind tag payload).replies
      counters := (s.receive kind tag payload).counters
      inbox := (s.receive kind tag payload).inbox } := by
  generalize h : s.receive kind tag payload = t
  unfold State.receive at h; dsimp only at h
  split at h
  · split at h <;> subst h <;> rfl
  · split at h
    · subst h; rfl
    · split at h <;> subst h <;> rfl

@[simp] theorem State.receive_counter (s : State) (kind tag : Byte) (payload : List Byte) : (s.receive kind tag payload).counter = s.counter := by
  rw [State.receive_frame]
@[simp] theorem State.receive_divider (s : State) (kind tag : Byte) (payload : List Byte) : (s.receive kind tag payload).divider = s.divider := by
  rw [State.receive_frame]
@[simp] theorem State.receive_elapsed (s : State) (kind tag : Byte) (payload : List Byte) : (s.receive kind tag payload).elapsed = s.elapsed := by
  rw [State.receive_frame]
@[simp] theorem State.receive_scheduler (s : State) (kind tag : Byte) (payload : List Byte) : (s.receive kind tag payload).scheduler = s.scheduler := by
  rw [State.receive_frame]
@[simp] theorem State.receive_probes (s : State) (kind tag : Byte) (payload : List Byte) : (s.receive kind tag payload).probes = s.probes := by
  rw [State.receive_frame]
@[simp] theorem State.receive_freeCount (s : State) (kind tag : Byte) (payload : List Byte) : (s.receive kind tag payload).freeCount = s.freeCount := by
  rw [State.receive_frame]
@[simp] theorem State.receive_dueQueue (s : State) (kind tag : Byte) (payload : List Byte) : (s.receive kind tag payload).dueQueue = s.dueQueue := by
  rw [State.receive_frame]
@[simp] theorem State.receive_engine (s : State) (kind tag : Byte) (payload : List Byte) : (s.receive kind tag payload).engine = s.engine := by
  rw [State.receive_frame]
@[simp] theorem State.receive_health (s : State) (kind tag : Byte) (payload : List Byte) : (s.receive kind tag payload).health = s.health := by
  rw [State.receive_frame]
@[simp] theorem State.receive_tolerance (s : State) (kind tag : Byte) (payload : List Byte) : (s.receive kind tag payload).tolerance = s.tolerance := by
  rw [State.receive_frame]
@[simp] theorem State.receive_nextSeq (s : State) (kind tag : Byte) (payload : List Byte) : (s.receive kind tag payload).nextSeq = s.nextSeq := by
  rw [State.receive_frame]
@[simp] theorem State.receive_gapAcc (s : State) (kind tag : Byte) (payload : List Byte) : (s.receive kind tag payload).gapAcc = s.gapAcc := by
  rw [State.receive_frame]
@[simp] theorem State.receive_holdSet (s : State) (kind tag : Byte) (payload : List Byte) : (s.receive kind tag payload).holdSet = s.holdSet := by
  rw [State.receive_frame]
@[simp] theorem State.receive_dropped (s : State) (kind tag : Byte) (payload : List Byte) : (s.receive kind tag payload).dropped = s.dropped := by
  rw [State.receive_frame]
@[simp] theorem State.receive_receiver (s : State) (kind tag : Byte) (payload : List Byte) : (s.receive kind tag payload).receiver = s.receiver := by
  rw [State.receive_frame]
@[simp] theorem State.receive_transmitter (s : State) (kind tag : Byte) (payload : List Byte) : (s.receive kind tag payload).transmitter = s.transmitter := by
  rw [State.receive_frame]
@[simp] theorem State.receive_ackTimeout (s : State) (kind tag : Byte) (payload : List Byte) : (s.receive kind tag payload).ackTimeout = s.ackTimeout := by
  rw [State.receive_frame]
@[simp] theorem State.receive_rate (s : State) (kind tag : Byte) (payload : List Byte) : (s.receive kind tag payload).rate = s.rate := by
  rw [State.receive_frame]
@[simp] theorem State.receive_rxdHigh (s : State) (kind tag : Byte) (payload : List Byte) : (s.receive kind tag payload).rxdHigh = s.rxdHigh := by
  rw [State.receive_frame]
@[simp] theorem State.receive_parked (s : State) (kind tag : Byte) (payload : List Byte) : (s.receive kind tag payload).parked = s.parked := by
  rw [State.receive_frame]
@[simp] theorem State.receive_softResetPending (s : State) (kind tag : Byte) (payload : List Byte) : (s.receive kind tag payload).softResetPending = s.softResetPending := by
  rw [State.receive_frame]
@[simp] theorem State.receive_resetCause (s : State) (kind tag : Byte) (payload : List Byte) : (s.receive kind tag payload).resetCause = s.resetCause := by
  rw [State.receive_frame]
@[simp] theorem State.receive_powerReset (s : State) (kind tag : Byte) (payload : List Byte) : (s.receive kind tag payload).powerReset = s.powerReset := by
  rw [State.receive_frame]
@[simp] theorem State.receive_pinReset (s : State) (kind tag : Byte) (payload : List Byte) : (s.receive kind tag payload).pinReset = s.pinReset := by
  rw [State.receive_frame]
@[simp] theorem State.receive_inReset (s : State) (kind tag : Byte) (payload : List Byte) : (s.receive kind tag payload).inReset = s.inReset := by
  simp [State.inReset]
@[simp] theorem State.receive_nextLink (s : State) (kind tag : Byte) (payload : List Byte) : (s.receive kind tag payload).nextLink = s.nextLink := by
  rw [State.receive_frame]
@[simp] theorem State.receive_nextFix (s : State) (kind tag : Byte) (payload : List Byte) : (s.receive kind tag payload).nextFix = s.nextFix := by
  rw [State.receive_frame]
@[simp] theorem State.receive_owed (s : State) (kind tag : Byte) (payload : List Byte) : (s.receive kind tag payload).owed = s.owed := by
  rw [State.receive_frame]
@[simp] theorem State.receive_pending (s : State) (kind tag : Byte) (payload : List Byte) : (s.receive kind tag payload).pending = s.pending := by
  rw [State.receive_frame]

@[simp] theorem State.receive_probe (s : State) (kind tag : Byte) (payload : List Byte) (j : Fin 32) : (s.receive kind tag payload).probe j = s.probe j := by
  simp [State.probe]

/-- The receipt, if owed. -/
theorem State.runReceipt_frame (s : State) :
    s.runReceipt = { s with
      mute := (s.runReceipt).mute
      notices := (s.runReceipt).notices
      replies := (s.runReceipt).replies
      counters := (s.runReceipt).counters
      inbox := (s.runReceipt).inbox
      owed := (s.runReceipt).owed } := by
  generalize h : s.runReceipt = t
  unfold State.runReceipt at h; split at h <;> subst h
  · rw [State.receive_frame]
  · rfl

@[simp] theorem State.runReceipt_counter (s : State) : (s.runReceipt).counter = s.counter := by
  rw [State.runReceipt_frame]
@[simp] theorem State.runReceipt_divider (s : State) : (s.runReceipt).divider = s.divider := by
  rw [State.runReceipt_frame]
@[simp] theorem State.runReceipt_elapsed (s : State) : (s.runReceipt).elapsed = s.elapsed := by
  rw [State.runReceipt_frame]
@[simp] theorem State.runReceipt_scheduler (s : State) : (s.runReceipt).scheduler = s.scheduler := by
  rw [State.runReceipt_frame]
@[simp] theorem State.runReceipt_probes (s : State) : (s.runReceipt).probes = s.probes := by
  rw [State.runReceipt_frame]
@[simp] theorem State.runReceipt_freeCount (s : State) : (s.runReceipt).freeCount = s.freeCount := by
  rw [State.runReceipt_frame]
@[simp] theorem State.runReceipt_dueQueue (s : State) : (s.runReceipt).dueQueue = s.dueQueue := by
  rw [State.runReceipt_frame]
@[simp] theorem State.runReceipt_engine (s : State) : (s.runReceipt).engine = s.engine := by
  rw [State.runReceipt_frame]
@[simp] theorem State.runReceipt_health (s : State) : (s.runReceipt).health = s.health := by
  rw [State.runReceipt_frame]
@[simp] theorem State.runReceipt_tolerance (s : State) : (s.runReceipt).tolerance = s.tolerance := by
  rw [State.runReceipt_frame]
@[simp] theorem State.runReceipt_nextSeq (s : State) : (s.runReceipt).nextSeq = s.nextSeq := by
  rw [State.runReceipt_frame]
@[simp] theorem State.runReceipt_gapAcc (s : State) : (s.runReceipt).gapAcc = s.gapAcc := by
  rw [State.runReceipt_frame]
@[simp] theorem State.runReceipt_holdSet (s : State) : (s.runReceipt).holdSet = s.holdSet := by
  rw [State.runReceipt_frame]
@[simp] theorem State.runReceipt_dropped (s : State) : (s.runReceipt).dropped = s.dropped := by
  rw [State.runReceipt_frame]
@[simp] theorem State.runReceipt_receiver (s : State) : (s.runReceipt).receiver = s.receiver := by
  rw [State.runReceipt_frame]
@[simp] theorem State.runReceipt_transmitter (s : State) : (s.runReceipt).transmitter = s.transmitter := by
  rw [State.runReceipt_frame]
@[simp] theorem State.runReceipt_ackTimeout (s : State) : (s.runReceipt).ackTimeout = s.ackTimeout := by
  rw [State.runReceipt_frame]
@[simp] theorem State.runReceipt_rate (s : State) : (s.runReceipt).rate = s.rate := by rw [State.runReceipt_frame]
@[simp] theorem State.runReceipt_rxdHigh (s : State) : (s.runReceipt).rxdHigh = s.rxdHigh := by
  rw [State.runReceipt_frame]
@[simp] theorem State.runReceipt_parked (s : State) : (s.runReceipt).parked = s.parked := by
  rw [State.runReceipt_frame]
@[simp] theorem State.runReceipt_softResetPending (s : State) : (s.runReceipt).softResetPending = s.softResetPending := by
  rw [State.runReceipt_frame]
@[simp] theorem State.runReceipt_resetCause (s : State) : (s.runReceipt).resetCause = s.resetCause := by
  rw [State.runReceipt_frame]
@[simp] theorem State.runReceipt_powerReset (s : State) : (s.runReceipt).powerReset = s.powerReset := by
  rw [State.runReceipt_frame]
@[simp] theorem State.runReceipt_pinReset (s : State) : (s.runReceipt).pinReset = s.pinReset := by
  rw [State.runReceipt_frame]
@[simp] theorem State.runReceipt_inReset (s : State) : (s.runReceipt).inReset = s.inReset := by
  simp [State.inReset]
@[simp] theorem State.runReceipt_nextLink (s : State) : (s.runReceipt).nextLink = s.nextLink := by
  rw [State.runReceipt_frame]
@[simp] theorem State.runReceipt_nextFix (s : State) : (s.runReceipt).nextFix = s.nextFix := by
  rw [State.runReceipt_frame]
@[simp] theorem State.runReceipt_pending (s : State) : (s.runReceipt).pending = s.pending := by
  rw [State.runReceipt_frame]

@[simp] theorem State.runReceipt_probe (s : State) (j : Fin 32) : (s.runReceipt).probe j = s.probe j := by
  simp [State.probe]

/-- What is owed touches no more than these. -/
theorem State.settled_frame (s : State) :
    s.settled = { s with
      probes := (s.settled).probes
      dueQueue := (s.settled).dueQueue
      notices := (s.settled).notices
      nextSeq := (s.settled).nextSeq
      gapAcc := (s.settled).gapAcc
      dropped := (s.settled).dropped
      mute := (s.settled).mute
      replies := (s.settled).replies
      counters := (s.settled).counters
      inbox := (s.settled).inbox
      receiver := (s.settled).receiver
      owed := (s.settled).owed } := by
  unfold State.settled
  generalize ht : s.runReceipt.runDueCheck.runTimeouts = t
  have h := t.runGap_frame
  have h1 := s.runReceipt.runDueCheck.runTimeouts_frame
  have h2 := s.runReceipt.runDueCheck_frame
  have h3 := s.runReceipt_frame
  rw [ht] at h1
  rw [h, h1, h2, h3]

@[simp] theorem State.settled_counter (s : State) : (s.settled).counter = s.counter := by rw [State.settled_frame]
@[simp] theorem State.settled_divider (s : State) : (s.settled).divider = s.divider := by rw [State.settled_frame]
@[simp] theorem State.settled_elapsed (s : State) : (s.settled).elapsed = s.elapsed := by rw [State.settled_frame]
@[simp] theorem State.settled_scheduler (s : State) : (s.settled).scheduler = s.scheduler := by
  rw [State.settled_frame]
@[simp] theorem State.settled_freeCount (s : State) : (s.settled).freeCount = s.freeCount := by
  rw [State.settled_frame]
@[simp] theorem State.settled_engine (s : State) : (s.settled).engine = s.engine := by rw [State.settled_frame]
@[simp] theorem State.settled_health (s : State) : (s.settled).health = s.health := by rw [State.settled_frame]
@[simp] theorem State.settled_tolerance (s : State) : (s.settled).tolerance = s.tolerance := by
  rw [State.settled_frame]
@[simp] theorem State.settled_holdSet (s : State) : (s.settled).holdSet = s.holdSet := by rw [State.settled_frame]
@[simp] theorem State.settled_transmitter (s : State) : (s.settled).transmitter = s.transmitter := by
  rw [State.settled_frame]
@[simp] theorem State.settled_ackTimeout (s : State) : (s.settled).ackTimeout = s.ackTimeout := by
  rw [State.settled_frame]
@[simp] theorem State.settled_rate (s : State) : (s.settled).rate = s.rate := by rw [State.settled_frame]
@[simp] theorem State.settled_rxdHigh (s : State) : (s.settled).rxdHigh = s.rxdHigh := by rw [State.settled_frame]
@[simp] theorem State.settled_parked (s : State) : (s.settled).parked = s.parked := by rw [State.settled_frame]
@[simp] theorem State.settled_softResetPending (s : State) : (s.settled).softResetPending = s.softResetPending := by
  rw [State.settled_frame]
@[simp] theorem State.settled_resetCause (s : State) : (s.settled).resetCause = s.resetCause := by
  rw [State.settled_frame]
@[simp] theorem State.settled_powerReset (s : State) : (s.settled).powerReset = s.powerReset := by rw [State.settled_frame]
@[simp] theorem State.settled_pinReset (s : State) : (s.settled).pinReset = s.pinReset := by rw [State.settled_frame]
@[simp] theorem State.settled_inReset (s : State) : (s.settled).inReset = s.inReset := by
  simp [State.inReset]
@[simp] theorem State.settled_nextLink (s : State) : (s.settled).nextLink = s.nextLink := by rw [State.settled_frame]
@[simp] theorem State.settled_nextFix (s : State) : (s.settled).nextFix = s.nextFix := by rw [State.settled_frame]
@[simp] theorem State.settled_pending (s : State) : (s.settled).pending = s.pending := by rw [State.settled_frame]

/-! ### A counted completion -/

/-- A report touches the notice queue alone. -/
theorem State.reportMove_frame (s : State) (i : Fin 32) (d : Definition) (b : Verdict) (r : RawVerdict) (v : Option Code) :
    s.reportMove i d b r v = { s with
      notices := (s.reportMove i d b r v).notices
      nextSeq := (s.reportMove i d b r v).nextSeq
      gapAcc := (s.reportMove i d b r v).gapAcc
      dropped := (s.reportMove i d b r v).dropped } := by
  generalize h : s.reportMove i d b r v = t
  unfold State.reportMove at h; dsimp only at h
  by_cases hc : (s.probe i).confirmed ≠ b ∧ (if b = .unknown then d.notify.initial else d.notify.crossing) = true
  · rw [if_pos hc] at h; subst h; rw [State.submit_frame]
  · rw [if_neg hc] at h; subst h; rfl

@[simp] theorem State.reportMove_counter (s : State) (i : Fin 32) (d : Definition) (b : Verdict) (r : RawVerdict) (v : Option Code) : (s.reportMove i d b r v).counter = s.counter := by
  rw [State.reportMove_frame]
@[simp] theorem State.reportMove_divider (s : State) (i : Fin 32) (d : Definition) (b : Verdict) (r : RawVerdict) (v : Option Code) : (s.reportMove i d b r v).divider = s.divider := by
  rw [State.reportMove_frame]
@[simp] theorem State.reportMove_elapsed (s : State) (i : Fin 32) (d : Definition) (b : Verdict) (r : RawVerdict) (v : Option Code) : (s.reportMove i d b r v).elapsed = s.elapsed := by
  rw [State.reportMove_frame]
@[simp] theorem State.reportMove_scheduler (s : State) (i : Fin 32) (d : Definition) (b : Verdict) (r : RawVerdict) (v : Option Code) : (s.reportMove i d b r v).scheduler = s.scheduler := by
  rw [State.reportMove_frame]
@[simp] theorem State.reportMove_probes (s : State) (i : Fin 32) (d : Definition) (b : Verdict) (r : RawVerdict) (v : Option Code) : (s.reportMove i d b r v).probes = s.probes := by
  rw [State.reportMove_frame]
@[simp] theorem State.reportMove_freeCount (s : State) (i : Fin 32) (d : Definition) (b : Verdict) (r : RawVerdict) (v : Option Code) : (s.reportMove i d b r v).freeCount = s.freeCount := by
  rw [State.reportMove_frame]
@[simp] theorem State.reportMove_dueQueue (s : State) (i : Fin 32) (d : Definition) (b : Verdict) (r : RawVerdict) (v : Option Code) : (s.reportMove i d b r v).dueQueue = s.dueQueue := by
  rw [State.reportMove_frame]
@[simp] theorem State.reportMove_engine (s : State) (i : Fin 32) (d : Definition) (b : Verdict) (r : RawVerdict) (v : Option Code) : (s.reportMove i d b r v).engine = s.engine := by
  rw [State.reportMove_frame]
@[simp] theorem State.reportMove_health (s : State) (i : Fin 32) (d : Definition) (b : Verdict) (r : RawVerdict) (v : Option Code) : (s.reportMove i d b r v).health = s.health := by
  rw [State.reportMove_frame]
@[simp] theorem State.reportMove_tolerance (s : State) (i : Fin 32) (d : Definition) (b : Verdict) (r : RawVerdict) (v : Option Code) : (s.reportMove i d b r v).tolerance = s.tolerance := by
  rw [State.reportMove_frame]
@[simp] theorem State.reportMove_holdSet (s : State) (i : Fin 32) (d : Definition) (b : Verdict) (r : RawVerdict) (v : Option Code) : (s.reportMove i d b r v).holdSet = s.holdSet := by
  rw [State.reportMove_frame]
@[simp] theorem State.reportMove_receiver (s : State) (i : Fin 32) (d : Definition) (b : Verdict) (r : RawVerdict) (v : Option Code) : (s.reportMove i d b r v).receiver = s.receiver := by
  rw [State.reportMove_frame]
@[simp] theorem State.reportMove_transmitter (s : State) (i : Fin 32) (d : Definition) (b : Verdict) (r : RawVerdict) (v : Option Code) : (s.reportMove i d b r v).transmitter = s.transmitter := by
  rw [State.reportMove_frame]
@[simp] theorem State.reportMove_mute (s : State) (i : Fin 32) (d : Definition) (b : Verdict) (r : RawVerdict) (v : Option Code) : (s.reportMove i d b r v).mute = s.mute := by
  rw [State.reportMove_frame]
@[simp] theorem State.reportMove_ackTimeout (s : State) (i : Fin 32) (d : Definition) (b : Verdict) (r : RawVerdict) (v : Option Code) : (s.reportMove i d b r v).ackTimeout = s.ackTimeout := by
  rw [State.reportMove_frame]
@[simp] theorem State.reportMove_rate (s : State) (i : Fin 32) (d : Definition) (b : Verdict) (r : RawVerdict) (v : Option Code) : (s.reportMove i d b r v).rate = s.rate := by
  rw [State.reportMove_frame]
@[simp] theorem State.reportMove_counters (s : State) (i : Fin 32) (d : Definition) (b : Verdict) (r : RawVerdict) (v : Option Code) : (s.reportMove i d b r v).counters = s.counters := by
  rw [State.reportMove_frame]
@[simp] theorem State.reportMove_rxdHigh (s : State) (i : Fin 32) (d : Definition) (b : Verdict) (r : RawVerdict) (v : Option Code) : (s.reportMove i d b r v).rxdHigh = s.rxdHigh := by
  rw [State.reportMove_frame]
@[simp] theorem State.reportMove_inbox (s : State) (i : Fin 32) (d : Definition) (b : Verdict) (r : RawVerdict) (v : Option Code) : (s.reportMove i d b r v).inbox = s.inbox := by
  rw [State.reportMove_frame]
@[simp] theorem State.reportMove_parked (s : State) (i : Fin 32) (d : Definition) (b : Verdict) (r : RawVerdict) (v : Option Code) : (s.reportMove i d b r v).parked = s.parked := by
  rw [State.reportMove_frame]
@[simp] theorem State.reportMove_replies (s : State) (i : Fin 32) (d : Definition) (b : Verdict) (r : RawVerdict) (v : Option Code) : (s.reportMove i d b r v).replies = s.replies := by
  rw [State.reportMove_frame]
@[simp] theorem State.reportMove_softResetPending (s : State) (i : Fin 32) (d : Definition) (b : Verdict) (r : RawVerdict) (v : Option Code) : (s.reportMove i d b r v).softResetPending = s.softResetPending := by
  rw [State.reportMove_frame]
@[simp] theorem State.reportMove_resetCause (s : State) (i : Fin 32) (d : Definition) (b : Verdict) (r : RawVerdict) (v : Option Code) : (s.reportMove i d b r v).resetCause = s.resetCause := by
  rw [State.reportMove_frame]
@[simp] theorem State.reportMove_powerReset (s : State) (i : Fin 32) (d : Definition) (b : Verdict) (r : RawVerdict) (v : Option Code) : (s.reportMove i d b r v).powerReset = s.powerReset := by
  rw [State.reportMove_frame]
@[simp] theorem State.reportMove_pinReset (s : State) (i : Fin 32) (d : Definition) (b : Verdict) (r : RawVerdict) (v : Option Code) : (s.reportMove i d b r v).pinReset = s.pinReset := by
  rw [State.reportMove_frame]
@[simp] theorem State.reportMove_inReset (s : State) (i : Fin 32) (d : Definition) (b : Verdict) (r : RawVerdict) (v : Option Code) : (s.reportMove i d b r v).inReset = s.inReset := by
  simp [State.inReset]
@[simp] theorem State.reportMove_nextLink (s : State) (i : Fin 32) (d : Definition) (b : Verdict) (r : RawVerdict) (v : Option Code) : (s.reportMove i d b r v).nextLink = s.nextLink := by
  rw [State.reportMove_frame]
@[simp] theorem State.reportMove_nextFix (s : State) (i : Fin 32) (d : Definition) (b : Verdict) (r : RawVerdict) (v : Option Code) : (s.reportMove i d b r v).nextFix = s.nextFix := by
  rw [State.reportMove_frame]
@[simp] theorem State.reportMove_owed (s : State) (i : Fin 32) (d : Definition) (b : Verdict) (r : RawVerdict) (v : Option Code) : (s.reportMove i d b r v).owed = s.owed := by
  rw [State.reportMove_frame]
@[simp] theorem State.reportMove_pending (s : State) (i : Fin 32) (d : Definition) (b : Verdict) (r : RawVerdict) (v : Option Code) : (s.reportMove i d b r v).pending = s.pending := by
  rw [State.reportMove_frame]

@[simp] theorem State.reportMove_probe (s : State) (i : Fin 32) (d : Definition) (b : Verdict) (r : RawVerdict) (v : Option Code) (j : Fin 32) : (s.reportMove i d b r v).probe j = s.probe j := by
  simp [State.probe]

/-- A counted check touches the health and the notice queue alone. -/
theorem State.judgeCheck_frame (s : State) (v : Code) :
    s.judgeCheck v = { s with
      health := (s.judgeCheck v).health
      notices := (s.judgeCheck v).notices
      nextSeq := (s.judgeCheck v).nextSeq
      gapAcc := (s.judgeCheck v).gapAcc
      dropped := (s.judgeCheck v).dropped } := by
  generalize h : s.judgeCheck v = t
  unfold State.judgeCheck at h; dsimp only at h; split at h <;> subst h
  · rw [State.submit_frame]
  · rw [State.submit_frame]
  · rfl

@[simp] theorem State.judgeCheck_counter (s : State) (v : Code) : (s.judgeCheck v).counter = s.counter := by
  rw [State.judgeCheck_frame]
@[simp] theorem State.judgeCheck_divider (s : State) (v : Code) : (s.judgeCheck v).divider = s.divider := by
  rw [State.judgeCheck_frame]
@[simp] theorem State.judgeCheck_elapsed (s : State) (v : Code) : (s.judgeCheck v).elapsed = s.elapsed := by
  rw [State.judgeCheck_frame]
@[simp] theorem State.judgeCheck_scheduler (s : State) (v : Code) : (s.judgeCheck v).scheduler = s.scheduler := by
  rw [State.judgeCheck_frame]
@[simp] theorem State.judgeCheck_probes (s : State) (v : Code) : (s.judgeCheck v).probes = s.probes := by
  rw [State.judgeCheck_frame]
@[simp] theorem State.judgeCheck_freeCount (s : State) (v : Code) : (s.judgeCheck v).freeCount = s.freeCount := by
  rw [State.judgeCheck_frame]
@[simp] theorem State.judgeCheck_dueQueue (s : State) (v : Code) : (s.judgeCheck v).dueQueue = s.dueQueue := by
  rw [State.judgeCheck_frame]
@[simp] theorem State.judgeCheck_engine (s : State) (v : Code) : (s.judgeCheck v).engine = s.engine := by
  rw [State.judgeCheck_frame]
@[simp] theorem State.judgeCheck_tolerance (s : State) (v : Code) : (s.judgeCheck v).tolerance = s.tolerance := by
  rw [State.judgeCheck_frame]
@[simp] theorem State.judgeCheck_holdSet (s : State) (v : Code) : (s.judgeCheck v).holdSet = s.holdSet := by
  rw [State.judgeCheck_frame]
@[simp] theorem State.judgeCheck_receiver (s : State) (v : Code) : (s.judgeCheck v).receiver = s.receiver := by
  rw [State.judgeCheck_frame]
@[simp] theorem State.judgeCheck_transmitter (s : State) (v : Code) : (s.judgeCheck v).transmitter = s.transmitter := by
  rw [State.judgeCheck_frame]
@[simp] theorem State.judgeCheck_mute (s : State) (v : Code) : (s.judgeCheck v).mute = s.mute := by
  rw [State.judgeCheck_frame]
@[simp] theorem State.judgeCheck_ackTimeout (s : State) (v : Code) : (s.judgeCheck v).ackTimeout = s.ackTimeout := by
  rw [State.judgeCheck_frame]
@[simp] theorem State.judgeCheck_rate (s : State) (v : Code) : (s.judgeCheck v).rate = s.rate := by
  rw [State.judgeCheck_frame]
@[simp] theorem State.judgeCheck_counters (s : State) (v : Code) : (s.judgeCheck v).counters = s.counters := by
  rw [State.judgeCheck_frame]
@[simp] theorem State.judgeCheck_rxdHigh (s : State) (v : Code) : (s.judgeCheck v).rxdHigh = s.rxdHigh := by
  rw [State.judgeCheck_frame]
@[simp] theorem State.judgeCheck_inbox (s : State) (v : Code) : (s.judgeCheck v).inbox = s.inbox := by
  rw [State.judgeCheck_frame]
@[simp] theorem State.judgeCheck_parked (s : State) (v : Code) : (s.judgeCheck v).parked = s.parked := by
  rw [State.judgeCheck_frame]
@[simp] theorem State.judgeCheck_replies (s : State) (v : Code) : (s.judgeCheck v).replies = s.replies := by
  rw [State.judgeCheck_frame]
@[simp] theorem State.judgeCheck_softResetPending (s : State) (v : Code) : (s.judgeCheck v).softResetPending = s.softResetPending := by
  rw [State.judgeCheck_frame]
@[simp] theorem State.judgeCheck_resetCause (s : State) (v : Code) : (s.judgeCheck v).resetCause = s.resetCause := by
  rw [State.judgeCheck_frame]
@[simp] theorem State.judgeCheck_powerReset (s : State) (v : Code) : (s.judgeCheck v).powerReset = s.powerReset := by
  rw [State.judgeCheck_frame]
@[simp] theorem State.judgeCheck_pinReset (s : State) (v : Code) : (s.judgeCheck v).pinReset = s.pinReset := by
  rw [State.judgeCheck_frame]
@[simp] theorem State.judgeCheck_inReset (s : State) (v : Code) : (s.judgeCheck v).inReset = s.inReset := by
  simp [State.inReset]
@[simp] theorem State.judgeCheck_nextLink (s : State) (v : Code) : (s.judgeCheck v).nextLink = s.nextLink := by
  rw [State.judgeCheck_frame]
@[simp] theorem State.judgeCheck_nextFix (s : State) (v : Code) : (s.judgeCheck v).nextFix = s.nextFix := by
  rw [State.judgeCheck_frame]
@[simp] theorem State.judgeCheck_owed (s : State) (v : Code) : (s.judgeCheck v).owed = s.owed := by
  rw [State.judgeCheck_frame]
@[simp] theorem State.judgeCheck_pending (s : State) (v : Code) : (s.judgeCheck v).pending = s.pending := by
  rw [State.judgeCheck_frame]

@[simp] theorem State.judgeCheck_probe (s : State) (v : Code) (j : Fin 32) : (s.judgeCheck v).probe j = s.probe j := by
  simp [State.probe]

/-- An append touches the probe and the notice queue alone. -/
theorem State.appendHistory_frame (s : State) (i : Fin 32) (d : Definition) (h : HistoryRecord) :
    s.appendHistory i d h = { s with
      probes := (s.appendHistory i d h).probes
      notices := (s.appendHistory i d h).notices
      nextSeq := (s.appendHistory i d h).nextSeq
      gapAcc := (s.appendHistory i d h).gapAcc
      dropped := (s.appendHistory i d h).dropped } := by
  generalize ht : s.appendHistory i d h = t
  unfold State.appendHistory at ht; dsimp only at ht
  split at ht
  · subst ht; rfl
  · split at ht
    · split at ht <;> subst ht
      · rw [State.submit_frame]; rfl
      · rfl
    · subst ht; rfl

@[simp] theorem State.appendHistory_counter (s : State) (i : Fin 32) (d : Definition) (h : HistoryRecord) : (s.appendHistory i d h).counter = s.counter := by
  rw [State.appendHistory_frame]
@[simp] theorem State.appendHistory_divider (s : State) (i : Fin 32) (d : Definition) (h : HistoryRecord) : (s.appendHistory i d h).divider = s.divider := by
  rw [State.appendHistory_frame]
@[simp] theorem State.appendHistory_elapsed (s : State) (i : Fin 32) (d : Definition) (h : HistoryRecord) : (s.appendHistory i d h).elapsed = s.elapsed := by
  rw [State.appendHistory_frame]
@[simp] theorem State.appendHistory_scheduler (s : State) (i : Fin 32) (d : Definition) (h : HistoryRecord) : (s.appendHistory i d h).scheduler = s.scheduler := by
  rw [State.appendHistory_frame]
@[simp] theorem State.appendHistory_freeCount (s : State) (i : Fin 32) (d : Definition) (h : HistoryRecord) : (s.appendHistory i d h).freeCount = s.freeCount := by
  rw [State.appendHistory_frame]
@[simp] theorem State.appendHistory_dueQueue (s : State) (i : Fin 32) (d : Definition) (h : HistoryRecord) : (s.appendHistory i d h).dueQueue = s.dueQueue := by
  rw [State.appendHistory_frame]
@[simp] theorem State.appendHistory_engine (s : State) (i : Fin 32) (d : Definition) (h : HistoryRecord) : (s.appendHistory i d h).engine = s.engine := by
  rw [State.appendHistory_frame]
@[simp] theorem State.appendHistory_health (s : State) (i : Fin 32) (d : Definition) (h : HistoryRecord) : (s.appendHistory i d h).health = s.health := by
  rw [State.appendHistory_frame]
@[simp] theorem State.appendHistory_tolerance (s : State) (i : Fin 32) (d : Definition) (h : HistoryRecord) : (s.appendHistory i d h).tolerance = s.tolerance := by
  rw [State.appendHistory_frame]
@[simp] theorem State.appendHistory_holdSet (s : State) (i : Fin 32) (d : Definition) (h : HistoryRecord) : (s.appendHistory i d h).holdSet = s.holdSet := by
  rw [State.appendHistory_frame]
@[simp] theorem State.appendHistory_receiver (s : State) (i : Fin 32) (d : Definition) (h : HistoryRecord) : (s.appendHistory i d h).receiver = s.receiver := by
  rw [State.appendHistory_frame]
@[simp] theorem State.appendHistory_transmitter (s : State) (i : Fin 32) (d : Definition) (h : HistoryRecord) : (s.appendHistory i d h).transmitter = s.transmitter := by
  rw [State.appendHistory_frame]
@[simp] theorem State.appendHistory_mute (s : State) (i : Fin 32) (d : Definition) (h : HistoryRecord) : (s.appendHistory i d h).mute = s.mute := by
  rw [State.appendHistory_frame]
@[simp] theorem State.appendHistory_ackTimeout (s : State) (i : Fin 32) (d : Definition) (h : HistoryRecord) : (s.appendHistory i d h).ackTimeout = s.ackTimeout := by
  rw [State.appendHistory_frame]
@[simp] theorem State.appendHistory_rate (s : State) (i : Fin 32) (d : Definition) (h : HistoryRecord) : (s.appendHistory i d h).rate = s.rate := by
  rw [State.appendHistory_frame]
@[simp] theorem State.appendHistory_counters (s : State) (i : Fin 32) (d : Definition) (h : HistoryRecord) : (s.appendHistory i d h).counters = s.counters := by
  rw [State.appendHistory_frame]
@[simp] theorem State.appendHistory_rxdHigh (s : State) (i : Fin 32) (d : Definition) (h : HistoryRecord) : (s.appendHistory i d h).rxdHigh = s.rxdHigh := by
  rw [State.appendHistory_frame]
@[simp] theorem State.appendHistory_inbox (s : State) (i : Fin 32) (d : Definition) (h : HistoryRecord) : (s.appendHistory i d h).inbox = s.inbox := by
  rw [State.appendHistory_frame]
@[simp] theorem State.appendHistory_parked (s : State) (i : Fin 32) (d : Definition) (h : HistoryRecord) : (s.appendHistory i d h).parked = s.parked := by
  rw [State.appendHistory_frame]
@[simp] theorem State.appendHistory_replies (s : State) (i : Fin 32) (d : Definition) (h : HistoryRecord) : (s.appendHistory i d h).replies = s.replies := by
  rw [State.appendHistory_frame]
@[simp] theorem State.appendHistory_softResetPending (s : State) (i : Fin 32) (d : Definition) (h : HistoryRecord) : (s.appendHistory i d h).softResetPending = s.softResetPending := by
  rw [State.appendHistory_frame]
@[simp] theorem State.appendHistory_resetCause (s : State) (i : Fin 32) (d : Definition) (h : HistoryRecord) : (s.appendHistory i d h).resetCause = s.resetCause := by
  rw [State.appendHistory_frame]
@[simp] theorem State.appendHistory_powerReset (s : State) (i : Fin 32) (d : Definition) (h : HistoryRecord) : (s.appendHistory i d h).powerReset = s.powerReset := by
  rw [State.appendHistory_frame]
@[simp] theorem State.appendHistory_pinReset (s : State) (i : Fin 32) (d : Definition) (h : HistoryRecord) : (s.appendHistory i d h).pinReset = s.pinReset := by
  rw [State.appendHistory_frame]
@[simp] theorem State.appendHistory_inReset (s : State) (i : Fin 32) (d : Definition) (h : HistoryRecord) : (s.appendHistory i d h).inReset = s.inReset := by
  simp [State.inReset]
@[simp] theorem State.appendHistory_nextLink (s : State) (i : Fin 32) (d : Definition) (h : HistoryRecord) : (s.appendHistory i d h).nextLink = s.nextLink := by
  rw [State.appendHistory_frame]
@[simp] theorem State.appendHistory_nextFix (s : State) (i : Fin 32) (d : Definition) (h : HistoryRecord) : (s.appendHistory i d h).nextFix = s.nextFix := by
  rw [State.appendHistory_frame]
@[simp] theorem State.appendHistory_owed (s : State) (i : Fin 32) (d : Definition) (h : HistoryRecord) : (s.appendHistory i d h).owed = s.owed := by
  rw [State.appendHistory_frame]
@[simp] theorem State.appendHistory_pending (s : State) (i : Fin 32) (d : Definition) (h : HistoryRecord) : (s.appendHistory i d h).pending = s.pending := by
  rw [State.appendHistory_frame]

/-- The evaluator touches the probe, the due queue, the health and the notice queue alone. -/
theorem State.evaluateRun_frame (s : State) (i : Fin 32) (d : Definition) (r : RunResult) :
    (s.evaluateRun i d r).1 = { s with
      probes := ((s.evaluateRun i d r).1).probes
      dueQueue := ((s.evaluateRun i d r).1).dueQueue
      health := ((s.evaluateRun i d r).1).health
      notices := ((s.evaluateRun i d r).1).notices
      nextSeq := ((s.evaluateRun i d r).1).nextSeq
      gapAcc := ((s.evaluateRun i d r).1).gapAcc
      dropped := ((s.evaluateRun i d r).1).dropped } := by
  rcases r with v | v | raw
  · rcases hw : d.style.window? with _ | w <;> simp only [State.evaluateRun, hw]
    · rfl
    · rw [State.reportMove_frame]; rfl
  · simp only [State.evaluateRun]; rw [State.judgeCheck_frame]; rfl
  · simp only [State.evaluateRun]
    by_cases hc : ((Probe.escalates (s.probe i) d raw).isSome && decide (s.scheduler = .running)) = true
    · rw [if_pos hc, State.reportMove_frame]; rfl
    · rw [if_neg hc, State.reportMove_frame]; rfl

@[simp] theorem State.evaluateRun_counter (s : State) (i : Fin 32) (d : Definition) (r : RunResult) : ((s.evaluateRun i d r).1).counter = s.counter := by
  rw [State.evaluateRun_frame]
@[simp] theorem State.evaluateRun_divider (s : State) (i : Fin 32) (d : Definition) (r : RunResult) : ((s.evaluateRun i d r).1).divider = s.divider := by
  rw [State.evaluateRun_frame]
@[simp] theorem State.evaluateRun_elapsed (s : State) (i : Fin 32) (d : Definition) (r : RunResult) : ((s.evaluateRun i d r).1).elapsed = s.elapsed := by
  rw [State.evaluateRun_frame]
@[simp] theorem State.evaluateRun_scheduler (s : State) (i : Fin 32) (d : Definition) (r : RunResult) : ((s.evaluateRun i d r).1).scheduler = s.scheduler := by
  rw [State.evaluateRun_frame]
@[simp] theorem State.evaluateRun_freeCount (s : State) (i : Fin 32) (d : Definition) (r : RunResult) : ((s.evaluateRun i d r).1).freeCount = s.freeCount := by
  rw [State.evaluateRun_frame]
@[simp] theorem State.evaluateRun_engine (s : State) (i : Fin 32) (d : Definition) (r : RunResult) : ((s.evaluateRun i d r).1).engine = s.engine := by
  rw [State.evaluateRun_frame]
@[simp] theorem State.evaluateRun_tolerance (s : State) (i : Fin 32) (d : Definition) (r : RunResult) : ((s.evaluateRun i d r).1).tolerance = s.tolerance := by
  rw [State.evaluateRun_frame]
@[simp] theorem State.evaluateRun_holdSet (s : State) (i : Fin 32) (d : Definition) (r : RunResult) : ((s.evaluateRun i d r).1).holdSet = s.holdSet := by
  rw [State.evaluateRun_frame]
@[simp] theorem State.evaluateRun_receiver (s : State) (i : Fin 32) (d : Definition) (r : RunResult) : ((s.evaluateRun i d r).1).receiver = s.receiver := by
  rw [State.evaluateRun_frame]
@[simp] theorem State.evaluateRun_transmitter (s : State) (i : Fin 32) (d : Definition) (r : RunResult) : ((s.evaluateRun i d r).1).transmitter = s.transmitter := by
  rw [State.evaluateRun_frame]
@[simp] theorem State.evaluateRun_mute (s : State) (i : Fin 32) (d : Definition) (r : RunResult) : ((s.evaluateRun i d r).1).mute = s.mute := by
  rw [State.evaluateRun_frame]
@[simp] theorem State.evaluateRun_ackTimeout (s : State) (i : Fin 32) (d : Definition) (r : RunResult) : ((s.evaluateRun i d r).1).ackTimeout = s.ackTimeout := by
  rw [State.evaluateRun_frame]
@[simp] theorem State.evaluateRun_rate (s : State) (i : Fin 32) (d : Definition) (r : RunResult) : ((s.evaluateRun i d r).1).rate = s.rate := by
  rw [State.evaluateRun_frame]
@[simp] theorem State.evaluateRun_counters (s : State) (i : Fin 32) (d : Definition) (r : RunResult) : ((s.evaluateRun i d r).1).counters = s.counters := by
  rw [State.evaluateRun_frame]
@[simp] theorem State.evaluateRun_rxdHigh (s : State) (i : Fin 32) (d : Definition) (r : RunResult) : ((s.evaluateRun i d r).1).rxdHigh = s.rxdHigh := by
  rw [State.evaluateRun_frame]
@[simp] theorem State.evaluateRun_inbox (s : State) (i : Fin 32) (d : Definition) (r : RunResult) : ((s.evaluateRun i d r).1).inbox = s.inbox := by
  rw [State.evaluateRun_frame]
@[simp] theorem State.evaluateRun_parked (s : State) (i : Fin 32) (d : Definition) (r : RunResult) : ((s.evaluateRun i d r).1).parked = s.parked := by
  rw [State.evaluateRun_frame]
@[simp] theorem State.evaluateRun_replies (s : State) (i : Fin 32) (d : Definition) (r : RunResult) : ((s.evaluateRun i d r).1).replies = s.replies := by
  rw [State.evaluateRun_frame]
@[simp] theorem State.evaluateRun_softResetPending (s : State) (i : Fin 32) (d : Definition) (r : RunResult) : ((s.evaluateRun i d r).1).softResetPending = s.softResetPending := by
  rw [State.evaluateRun_frame]
@[simp] theorem State.evaluateRun_resetCause (s : State) (i : Fin 32) (d : Definition) (r : RunResult) : ((s.evaluateRun i d r).1).resetCause = s.resetCause := by
  rw [State.evaluateRun_frame]
@[simp] theorem State.evaluateRun_powerReset (s : State) (i : Fin 32) (d : Definition) (r : RunResult) : ((s.evaluateRun i d r).1).powerReset = s.powerReset := by
  rw [State.evaluateRun_frame]
@[simp] theorem State.evaluateRun_pinReset (s : State) (i : Fin 32) (d : Definition) (r : RunResult) : ((s.evaluateRun i d r).1).pinReset = s.pinReset := by
  rw [State.evaluateRun_frame]
@[simp] theorem State.evaluateRun_inReset (s : State) (i : Fin 32) (d : Definition) (r : RunResult) : ((s.evaluateRun i d r).1).inReset = s.inReset := by
  simp [State.inReset]
@[simp] theorem State.evaluateRun_nextLink (s : State) (i : Fin 32) (d : Definition) (r : RunResult) : ((s.evaluateRun i d r).1).nextLink = s.nextLink := by
  rw [State.evaluateRun_frame]
@[simp] theorem State.evaluateRun_nextFix (s : State) (i : Fin 32) (d : Definition) (r : RunResult) : ((s.evaluateRun i d r).1).nextFix = s.nextFix := by
  rw [State.evaluateRun_frame]
@[simp] theorem State.evaluateRun_owed (s : State) (i : Fin 32) (d : Definition) (r : RunResult) : ((s.evaluateRun i d r).1).owed = s.owed := by
  rw [State.evaluateRun_frame]
@[simp] theorem State.evaluateRun_pending (s : State) (i : Fin 32) (d : Definition) (r : RunResult) : ((s.evaluateRun i d r).1).pending = s.pending := by
  rw [State.evaluateRun_frame]

/-- A counted completion touches the probe, the due queue, the health and the notice queue alone. -/
theorem State.countRun_frame (s : State) (e : ScheduledEntry) (d : Definition) (r : RunResult) :
    s.countRun e d r = { s with
      probes := (s.countRun e d r).probes
      dueQueue := (s.countRun e d r).dueQueue
      health := (s.countRun e d r).health
      notices := (s.countRun e d r).notices
      nextSeq := (s.countRun e d r).nextSeq
      gapAcc := (s.countRun e d r).gapAcc
      dropped := (s.countRun e d r).dropped } := by
  have h : s.countRun e d r = ((s.evaluateRun e.probe d r).1.clearLatch e.probe).appendHistory e.probe d
      ((s.evaluateRun e.probe d r).1.recordOf e (s.evaluateRun e.probe d r).2) := rfl
  rw [h, State.appendHistory_frame]
  generalize ht : (s.evaluateRun e.probe d r).1 = t
  have h1 := s.evaluateRun_frame e.probe d r
  rw [ht] at h1
  simp only [State.clearLatch, State.setProbe]
  rw [h1]

@[simp] theorem State.countRun_counter (s : State) (e : ScheduledEntry) (d : Definition) (r : RunResult) : (s.countRun e d r).counter = s.counter := by
  rw [State.countRun_frame]
@[simp] theorem State.countRun_divider (s : State) (e : ScheduledEntry) (d : Definition) (r : RunResult) : (s.countRun e d r).divider = s.divider := by
  rw [State.countRun_frame]
@[simp] theorem State.countRun_elapsed (s : State) (e : ScheduledEntry) (d : Definition) (r : RunResult) : (s.countRun e d r).elapsed = s.elapsed := by
  rw [State.countRun_frame]
@[simp] theorem State.countRun_scheduler (s : State) (e : ScheduledEntry) (d : Definition) (r : RunResult) : (s.countRun e d r).scheduler = s.scheduler := by
  rw [State.countRun_frame]
@[simp] theorem State.countRun_freeCount (s : State) (e : ScheduledEntry) (d : Definition) (r : RunResult) : (s.countRun e d r).freeCount = s.freeCount := by
  rw [State.countRun_frame]
@[simp] theorem State.countRun_engine (s : State) (e : ScheduledEntry) (d : Definition) (r : RunResult) : (s.countRun e d r).engine = s.engine := by
  rw [State.countRun_frame]
@[simp] theorem State.countRun_tolerance (s : State) (e : ScheduledEntry) (d : Definition) (r : RunResult) : (s.countRun e d r).tolerance = s.tolerance := by
  rw [State.countRun_frame]
@[simp] theorem State.countRun_holdSet (s : State) (e : ScheduledEntry) (d : Definition) (r : RunResult) : (s.countRun e d r).holdSet = s.holdSet := by
  rw [State.countRun_frame]
@[simp] theorem State.countRun_receiver (s : State) (e : ScheduledEntry) (d : Definition) (r : RunResult) : (s.countRun e d r).receiver = s.receiver := by
  rw [State.countRun_frame]
@[simp] theorem State.countRun_transmitter (s : State) (e : ScheduledEntry) (d : Definition) (r : RunResult) : (s.countRun e d r).transmitter = s.transmitter := by
  rw [State.countRun_frame]
@[simp] theorem State.countRun_mute (s : State) (e : ScheduledEntry) (d : Definition) (r : RunResult) : (s.countRun e d r).mute = s.mute := by
  rw [State.countRun_frame]
@[simp] theorem State.countRun_ackTimeout (s : State) (e : ScheduledEntry) (d : Definition) (r : RunResult) : (s.countRun e d r).ackTimeout = s.ackTimeout := by
  rw [State.countRun_frame]
@[simp] theorem State.countRun_rate (s : State) (e : ScheduledEntry) (d : Definition) (r : RunResult) : (s.countRun e d r).rate = s.rate := by
  rw [State.countRun_frame]
@[simp] theorem State.countRun_counters (s : State) (e : ScheduledEntry) (d : Definition) (r : RunResult) : (s.countRun e d r).counters = s.counters := by
  rw [State.countRun_frame]
@[simp] theorem State.countRun_rxdHigh (s : State) (e : ScheduledEntry) (d : Definition) (r : RunResult) : (s.countRun e d r).rxdHigh = s.rxdHigh := by
  rw [State.countRun_frame]
@[simp] theorem State.countRun_inbox (s : State) (e : ScheduledEntry) (d : Definition) (r : RunResult) : (s.countRun e d r).inbox = s.inbox := by
  rw [State.countRun_frame]
@[simp] theorem State.countRun_parked (s : State) (e : ScheduledEntry) (d : Definition) (r : RunResult) : (s.countRun e d r).parked = s.parked := by
  rw [State.countRun_frame]
@[simp] theorem State.countRun_replies (s : State) (e : ScheduledEntry) (d : Definition) (r : RunResult) : (s.countRun e d r).replies = s.replies := by
  rw [State.countRun_frame]
@[simp] theorem State.countRun_softResetPending (s : State) (e : ScheduledEntry) (d : Definition) (r : RunResult) : (s.countRun e d r).softResetPending = s.softResetPending := by
  rw [State.countRun_frame]
@[simp] theorem State.countRun_resetCause (s : State) (e : ScheduledEntry) (d : Definition) (r : RunResult) : (s.countRun e d r).resetCause = s.resetCause := by
  rw [State.countRun_frame]
@[simp] theorem State.countRun_powerReset (s : State) (e : ScheduledEntry) (d : Definition) (r : RunResult) : (s.countRun e d r).powerReset = s.powerReset := by
  rw [State.countRun_frame]
@[simp] theorem State.countRun_pinReset (s : State) (e : ScheduledEntry) (d : Definition) (r : RunResult) : (s.countRun e d r).pinReset = s.pinReset := by
  rw [State.countRun_frame]
@[simp] theorem State.countRun_inReset (s : State) (e : ScheduledEntry) (d : Definition) (r : RunResult) : (s.countRun e d r).inReset = s.inReset := by
  simp [State.inReset]
@[simp] theorem State.countRun_nextLink (s : State) (e : ScheduledEntry) (d : Definition) (r : RunResult) : (s.countRun e d r).nextLink = s.nextLink := by
  rw [State.countRun_frame]
@[simp] theorem State.countRun_nextFix (s : State) (e : ScheduledEntry) (d : Definition) (r : RunResult) : (s.countRun e d r).nextFix = s.nextFix := by
  rw [State.countRun_frame]
@[simp] theorem State.countRun_owed (s : State) (e : ScheduledEntry) (d : Definition) (r : RunResult) : (s.countRun e d r).owed = s.owed := by
  rw [State.countRun_frame]
@[simp] theorem State.countRun_pending (s : State) (e : ScheduledEntry) (d : Definition) (r : RunResult) : (s.countRun e d r).pending = s.pending := by
  rw [State.countRun_frame]


end Sys2Proof.Machine
end

