-- ==== Sys2Proof/Laws/Record.lean ====
section
/-! SUPPORT. What the scheduler's and the history store's steps of a counted run come to (R38, R98 to R101). -/

namespace Sys2Proof.Machine

/-- The latch and the append leave the record of withRecord, and submit a WATERMARK notice where the fill comes to the
watermark. -/
theorem State.clearLatch_appendHistory (s : State) (i : Fin 32) (d : Definition) (h : HistoryRecord) :
    (s.clearLatch i).appendHistory i d h =
      (if (s.probe i).ring.length < d.depth ∧ (s.probe i).ring.length + 1 = d.watermark ∧
          (s.probe i).watermarkReached = false ∧ d.notify.watermark = true
        then [NoticeContent.watermark i (s.probe i).generation d.watermark d.depth] else []).foldl State.submit
        (s.setProbe i ((s.probe i).withRecord d h)) := by
  unfold State.appendHistory State.clearLatch
  by_cases hd : d.depth = 0
  · simp [hd, Probe.withRecord]
  · rw [if_neg hd]
    simp only [State.probe_setProbe_same, State.setProbe_setProbe, Probe.reachesWatermark, Probe.appendRecord, satInc_half]
    by_cases room : (s.probe i).ring.length < d.depth
    · by_cases fill : (s.probe i).ring.length + 1 = d.watermark
      · by_cases reached : (s.probe i).watermarkReached = true
        · simp [room, fill, reached, hd, Probe.withRecord]
        · by_cases n : d.notify.watermark = true <;> simp [room, fill, reached, hd, n, Probe.withRecord]
      · simp [room, fill, hd, Probe.withRecord, beq_eq_false_iff_ne.2 fill]
    · simp [room, hd, Probe.withRecord]

end Sys2Proof.Machine
end

