-- ==== Sys2Proof/Laws/Resets.lean ====
section
/-! SUPPORT. What the beginning and the end of a reset can do. -/

namespace Sys2Proof.Machine

/-! ### Marking a reset -/

@[simp] theorem State.markReset_counter (s : State) (b : Bool) (c : ResetCause) : (s.markReset b c).counter = s.counter := by
  cases c <;> rfl
@[simp] theorem State.markReset_divider (s : State) (b : Bool) (c : ResetCause) : (s.markReset b c).divider = s.divider := by
  cases c <;> rfl
@[simp] theorem State.markReset_elapsed (s : State) (b : Bool) (c : ResetCause) : (s.markReset b c).elapsed = s.elapsed := by
  cases c <;> rfl
@[simp] theorem State.markReset_scheduler (s : State) (b : Bool) (c : ResetCause) : (s.markReset b c).scheduler = s.scheduler := by
  cases c <;> rfl
@[simp] theorem State.markReset_probes (s : State) (b : Bool) (c : ResetCause) : (s.markReset b c).probes = s.probes := by
  cases c <;> rfl
@[simp] theorem State.markReset_freeCount (s : State) (b : Bool) (c : ResetCause) : (s.markReset b c).freeCount = s.freeCount := by
  cases c <;> rfl
@[simp] theorem State.markReset_dueQueue (s : State) (b : Bool) (c : ResetCause) : (s.markReset b c).dueQueue = s.dueQueue := by
  cases c <;> rfl
@[simp] theorem State.markReset_engine (s : State) (b : Bool) (c : ResetCause) : (s.markReset b c).engine = s.engine := by
  cases c <;> rfl
@[simp] theorem State.markReset_health (s : State) (b : Bool) (c : ResetCause) : (s.markReset b c).health = s.health := by
  cases c <;> rfl
@[simp] theorem State.markReset_tolerance (s : State) (b : Bool) (c : ResetCause) : (s.markReset b c).tolerance = s.tolerance := by
  cases c <;> rfl
@[simp] theorem State.markReset_notices (s : State) (b : Bool) (c : ResetCause) : (s.markReset b c).notices = s.notices := by
  cases c <;> rfl
@[simp] theorem State.markReset_nextSeq (s : State) (b : Bool) (c : ResetCause) : (s.markReset b c).nextSeq = s.nextSeq := by
  cases c <;> rfl
@[simp] theorem State.markReset_gapAcc (s : State) (b : Bool) (c : ResetCause) : (s.markReset b c).gapAcc = s.gapAcc := by
  cases c <;> rfl
@[simp] theorem State.markReset_holdSet (s : State) (b : Bool) (c : ResetCause) : (s.markReset b c).holdSet = s.holdSet := by
  cases c <;> rfl
@[simp] theorem State.markReset_dropped (s : State) (b : Bool) (c : ResetCause) : (s.markReset b c).dropped = s.dropped := by
  cases c <;> rfl
@[simp] theorem State.markReset_receiver (s : State) (b : Bool) (c : ResetCause) : (s.markReset b c).receiver = s.receiver := by
  cases c <;> rfl
@[simp] theorem State.markReset_transmitter (s : State) (b : Bool) (c : ResetCause) : (s.markReset b c).transmitter = s.transmitter := by
  cases c <;> rfl
@[simp] theorem State.markReset_mute (s : State) (b : Bool) (c : ResetCause) : (s.markReset b c).mute = s.mute := by
  cases c <;> rfl
@[simp] theorem State.markReset_ackTimeout (s : State) (b : Bool) (c : ResetCause) : (s.markReset b c).ackTimeout = s.ackTimeout := by
  cases c <;> rfl
@[simp] theorem State.markReset_rate (s : State) (b : Bool) (c : ResetCause) : (s.markReset b c).rate = s.rate := by
  cases c <;> rfl
@[simp] theorem State.markReset_counters (s : State) (b : Bool) (c : ResetCause) : (s.markReset b c).counters = s.counters := by
  cases c <;> rfl
@[simp] theorem State.markReset_rxdHigh (s : State) (b : Bool) (c : ResetCause) : (s.markReset b c).rxdHigh = s.rxdHigh := by
  cases c <;> rfl
@[simp] theorem State.markReset_inbox (s : State) (b : Bool) (c : ResetCause) : (s.markReset b c).inbox = s.inbox := by
  cases c <;> rfl
@[simp] theorem State.markReset_parked (s : State) (b : Bool) (c : ResetCause) : (s.markReset b c).parked = s.parked := by
  cases c <;> rfl
@[simp] theorem State.markReset_replies (s : State) (b : Bool) (c : ResetCause) : (s.markReset b c).replies = s.replies := by
  cases c <;> rfl
@[simp] theorem State.markReset_softResetPending (s : State) (b : Bool) (c : ResetCause) : (s.markReset b c).softResetPending = s.softResetPending := by
  cases c <;> rfl
@[simp] theorem State.markReset_resetCause (s : State) (b : Bool) (c : ResetCause) : (s.markReset b c).resetCause = s.resetCause := by
  cases c <;> rfl
@[simp] theorem State.markReset_nextLink (s : State) (b : Bool) (c : ResetCause) : (s.markReset b c).nextLink = s.nextLink := by
  cases c <;> rfl
@[simp] theorem State.markReset_nextFix (s : State) (b : Bool) (c : ResetCause) : (s.markReset b c).nextFix = s.nextFix := by
  cases c <;> rfl
@[simp] theorem State.markReset_owed (s : State) (b : Bool) (c : ResetCause) : (s.markReset b c).owed = s.owed := by
  cases c <;> rfl
@[simp] theorem State.markReset_pending (s : State) (b : Bool) (c : ResetCause) : (s.markReset b c).pending = s.pending := by
  cases c <;> rfl
@[simp] theorem State.markReset_power (s : State) (b : Bool) : s.markReset b .power = { s with powerReset := b } := rfl
@[simp] theorem State.markReset_pin (s : State) (b : Bool) : s.markReset b .pin = { s with pinReset := b } := rfl

/-- The part is held in reset by either reset. -/
theorem State.inReset_eq_false {s : State} : s.inReset = false ↔ s.powerReset = false ∧ s.pinReset = false := by
  simp [State.inReset]

theorem State.inReset_eq_true {s : State} : s.inReset = true ↔ s.powerReset = true ∨ s.pinReset = true := by
  simp [State.inReset]

/-! ### Reset events -/

/-- The beginning of a reset, whatever is owed and whether or not the other reset lasts. -/
theorem State.resetEvent_begins (s : State) (cause : ResetCause) :
    s.resetEvent cause .begins = s.enterReset.markReset true cause := rfl

/-- The beginning of a reset holds the part in reset. -/
theorem State.inReset_begins (s : State) :
    (s.resetEvent .power .begins).inReset = true ∧ (s.resetEvent .pin .begins).inReset = true :=
  ⟨rfl, Bool.or_true _⟩

/-- At the beginning of a reset nothing is in flight, and the engine is QUIESCED exactly while its line is asserted. -/
theorem State.enterReset_engine (s : State) : s.enterReset.engine = if s.quiesceLine then .quiesced else .idle := rfl

@[simp] theorem State.enterReset_dueQueue (s : State) : s.enterReset.dueQueue = [] := rfl
@[simp] theorem State.enterReset_parked (s : State) : s.enterReset.parked = [] := rfl
@[simp] theorem State.enterReset_notices (s : State) : s.enterReset.notices = [] := rfl
@[simp] theorem State.enterReset_rate (s : State) : s.enterReset.rate = s.rate := rfl
@[simp] theorem State.enterReset_resetCause (s : State) : s.enterReset.resetCause = s.resetCause := rfl
@[simp] theorem State.enterReset_rxdHigh (s : State) : s.enterReset.rxdHigh = s.rxdHigh := rfl
@[simp] theorem State.enterReset_powerReset (s : State) : s.enterReset.powerReset = s.powerReset := rfl
@[simp] theorem State.enterReset_pinReset (s : State) : s.enterReset.pinReset = s.pinReset := rfl
@[simp] theorem State.enterReset_pending (s : State) : s.enterReset.pending = s.pending := rfl

theorem State.resetEvent_ends (s : State) (cause : ResetCause) (pins : ResetPins) :
    s.resetEvent cause (.ends pins) = (s.hardReset cause pins).markReset false cause := rfl

/-- The end of one reset leaves the part held by the other, and by nothing else. -/
theorem State.inReset_ends (s : State) (pins : ResetPins) :
    (s.resetEvent .power (.ends pins)).inReset = s.pinReset ∧ (s.resetEvent .pin (.ends pins)).inReset = s.powerReset :=
  ⟨rfl, Bool.or_false _⟩

@[simp] theorem State.hardReset_powerReset (s : State) (cause : ResetCause) (pins : ResetPins) :
    (s.hardReset cause pins).powerReset = s.powerReset := rfl

@[simp] theorem State.hardReset_pinReset (s : State) (cause : ResetCause) (pins : ResetPins) :
    (s.hardReset cause pins).pinReset = s.pinReset := rfl

@[simp] theorem State.hardReset_inReset (s : State) (cause : ResetCause) (pins : ResetPins) :
    (s.hardReset cause pins).inReset = s.inReset := rfl

@[simp] theorem State.softReset_inReset (s : State) : s.softReset.inReset = false := rfl

end Sys2Proof.Machine
end

