-- ==== Sys2Proof/Tests/Slice0.lean ====
section
/-! SUPPORT. Tests on values that the spec states, ill-formed terms that the checks refuse, and for every statement with
hypotheses a witness that meets them. -/

namespace Sys2Proof.Tests

open Sys2Proof Sys2Proof.Machine

-- Each kernel evaluation below would otherwise hold a thread of its own, and their stacks exceed the check's memory limit.
set_option Elab.async false

/-! ### Helpers -/

/-- The state a command leaves. -/
def after (c : Instr) (s : State) : State :=
  match exec c s with
  | .next t => t
  | .fault _ | .refused _ => s

/-- The part after a power reset with one command frame in the inbox. -/
def holding (c : HostCommand) (payload : List Byte) : State :=
  { State.reset with inbox := [⟨c.code, 7, payload, false⟩] }

/-- A window of 3000 and 1000 with hysteresis 40 and settle 3 (1.10, 4.8). -/
def window : Window := ⟨3000, 1000, 40, 3⟩

/-- A definition of style LEVEL with that window and a ring of 4. -/
def levelDefn : Definition :=
  ⟨3, .level (some window), 128, 10, 1, 4, 3, ⟨true, true, true, true⟩⟩

/-- An ARMED probe of a definition. -/
def armed (d : Definition) : Probe :=
  { Probe.cleared 2 with state := .armed, defn := some d, nextDue := some 1034 }

/-- The part after a power reset with probe 4 replaced, no notice, and the scheduler RUNNING. -/
def running (p : Probe) : State :=
  { State.reset.setProbe 4 p with scheduler := .running, notices := [], counter := 1034 }

/-- The same with an operation in flight for probe 4. -/
def inFlight (p : Probe) (op : Operation) : State :=
  { running p with engine := .busy ⟨.scheduled ⟨4, 2, 1034, false, 0⟩, op, 3⟩ }

/-- The DEFINE payload of 1.10: probe 5, channel 3, WINDOW, class 1, period 128, phase 10, 3000 and 1000, 40, 3, no
confirm runs, depth 16, watermark 12, CROSSING and WATERMARK. -/
def definePayload : List Byte :=
  [5, 3, 0x11, 0, 128, 0, 10, 0x0B, 0xB8, 0x03, 0xE8, 40, 3, 0, 16, 12, 5]

/-- A QUEUED notice. -/
def notice (seq : Half) (c : NoticeContent) : Notice := ⟨seq, c, 0, 0, .queued, 0⟩

/-- A full queue of OVERRUN notices. -/
def fullQueue : List Notice := (List.range 24).map fun k => notice (BitVec.ofNat 16 k) (.overrun 1 (BitVec.ofNat 8 k) 1)

/-! ### Frames and layouts (Chapters 9 and 10) -/

/-- 9.2: the check sequence of HELLO with tag 7. -/
theorem test_hello_frame : frameBytes 0x01 7 [] = [0xC3, 0x00, 0x01, 0x07, 0x8F, 0x4A] := by decide +kernel

/-- R148: the check value of the nine characters 1 to 9. -/
theorem test_fcs_check_value : fcs [0x31, 0x32, 0x33, 0x34, 0x35, 0x36, 0x37, 0x38, 0x39] = 0x29B1 := by decide +kernel

/-- 1.10: the DEFINE payload is read field by field. -/
theorem test_define_payload : checkDefinition (defineFields definePayload) =
    .ok ⟨3, .window window, 128, 10, 1, 16, 12, ⟨true, false, true, false⟩⟩ := by decide +kernel

/-- Table 10-6: a definition is reported as it was carried. -/
theorem test_definition_bytes : (Definition.mk 3 (.window window) 128 10 1 16 12 ⟨true, false, true, false⟩).bytes =
    definePayload.drop 1 := by decide +kernel

/-- R18: a FREE probe is reported by its state and generation alone. -/
theorem test_free_probe_bytes : (Probe.cleared 9).bytes = [0, 9] := by decide +kernel

/-- Table 10-7: the payload of the STARTUP notice of a power reset with QUIESCE asserted. -/
theorem test_startup_payload : (Notice.startup .power true).payload =
    [0, 0, 3, 0, 0, 0, 0, 0, 0xFF, 0xFF, 0, 0, 1] := by decide +kernel

/-- Table 10-5: codes are assigned to the nineteen commands and to nothing else. -/
theorem test_codes : (∀ c ∈ HostCommand.all, HostCommand.ofCode c.code = some c) ∧ HostCommand.ofCode 0x81 = none ∧
    HostCommand.ofCode 0x02 = none := by decide +kernel

/-! ### Well-formedness -/

theorem test_frame_unassigned_kind : Frame.wellFormed ⟨0x02, 0, [], false⟩ = false := by decide +kernel

theorem test_frame_wrong_length : Frame.wellFormed ⟨0x40, 0, [0], false⟩ = false := by decide +kernel

theorem test_frame_wellFormed : Frame.wellFormed ⟨0x10, 0, definePayload, false⟩ = true := by decide +kernel

theorem test_window_limits_crossed : Window.wellFormed ⟨1000, 1001, 0, 1⟩ = false := by decide

theorem test_window_hysteresis_too_wide : Window.wellFormed ⟨1010, 1000, 11, 1⟩ = false := by decide

theorem test_window_settle_zero : Window.wellFormed ⟨3000, 1000, 40, 0⟩ = false := by decide

theorem test_window_settle_nine : Window.wellFormed ⟨3000, 1000, 40, 9⟩ = false := by decide

theorem test_definition_check_on_an_input : Definition.channelAgrees { levelDefn with style := .check } = false := by decide

theorem test_definition_level_on_the_reference : Definition.channelAgrees { levelDefn with channel := 16 } = false := by
  decide

theorem test_definition_period_zero : Definition.phaseFits { levelDefn with period := 0, phase := 0 } = false := by decide

theorem test_definition_phase_at_period : Definition.phaseFits { levelDefn with phase := 128 } = false := by decide

theorem test_definition_bad_window : Definition.windowFits
    { levelDefn with style := .window ⟨1, 2, 0, 1⟩ } = false := by decide

theorem test_definition_no_confirm_runs : Definition.confirmFits
    { levelDefn with style := .adaptive window 0 } = false := by decide

theorem test_definition_confirm_runs_seventeen : Definition.confirmFits
    { levelDefn with style := .adaptive window 17 } = false := by decide

theorem test_definition_depth_sixty_five : Definition.ringFits { levelDefn with depth := 65 } = false := by decide

theorem test_definition_watermark_above_depth : Definition.ringFits { levelDefn with watermark := 5 } = false := by decide

theorem test_definition_wellFormed : levelDefn.wellFormed = true := by decide

theorem test_instr_wellFormed : Instr.wellFormed .tick = true := by decide

/-! ### The tick and the schedule (Chapter 2) -/

/-- R23: 4294967295 is followed by 0. -/
theorem test_tick_wraps : (after .tick { State.reset with counter := 4294967295 }).counter = 0 := by decide +kernel

/-- R33: from 1000 with period 128 and phase 10 the next due is 1034 (1.10). -/
theorem test_align : align 1000 128 10 = 1034 ∧ align 1034 128 10 = 1162 := by decide +kernel

/-- R33: no value up to 4294967295 leaves the remainder, so the first one from 0 on is taken. -/
theorem test_align_wraps : align 4294967295 100 7 = 7 := by decide +kernel

/-- R35: a due probe has an entry queued and its next due advanced. -/
theorem test_due_check_queues :
    let t := after .dueCheck { running (armed levelDefn) with owed := ⟨true, false, false, none⟩ }
    t.dueQueue = [.scheduled ⟨4, 2, 1034, false, 0⟩] ∧ (t.probe 4).nextDue = some 1162 := by decide +kernel

/-- R37: a due probe with a run in flight counts an overrun and reports it. -/
theorem test_due_check_overrun :
    let t := after .dueCheck { inFlight (armed levelDefn) .level with owed := ⟨true, false, false, none⟩ }
    (t.probe 4).overruns = 1 ∧ t.dueQueue = [] ∧ t.notices.map Notice.content = [.overrun 4 2 1] := by decide +kernel

/-- R27: RUN aligns an ARMED probe. -/
theorem test_run_aligns :
    let t := after .run
      { State.reset.setProbe 4 (armed levelDefn) with counter := 1000, inbox := [⟨0x20, 7, [], false⟩] }
    t.scheduler = .running ∧ (t.probe 4).nextDue = some 1034 := by decide +kernel

/-- R28: PAUSE with a scheduled operation in flight drains and is parked. -/
theorem test_pause_drains :
    let t := after .pause { inFlight (armed levelDefn) .level with inbox := [⟨0x21, 7, [], false⟩] }
    t.scheduler = .draining ∧ t.parked = [⟨7, .pause, 0, .awaited⟩] ∧ t.replies = [] := by decide +kernel

/-- R24: SET_TIME loads the counter in STOPPED. -/
theorem test_set_time : (after .setTime (holding .setTime [1, 2, 3, 4])).counter = 0x01020304 := by decide +kernel

/-- R25: READ_TIME. -/
theorem test_read_time : (after .readTime (holding .readTime [])).replies = [⟨7, 0x23, .time 0 .stopped⟩] := by
  decide +kernel

/-! ### The engine and the verdicts (Chapters 3 to 5) -/

/-- R50, R67: a WINDOW run from UNKNOWN compares against high and against low − 1. -/
theorem test_take_window_run :
    let d := { levelDefn with style := .window window }
    (after .take { running (armed d) with dueQueue := [.scheduled ⟨4, 2, 1034, false, 0⟩] }).engine =
      .busy ⟨.scheduled ⟨4, 2, 1034, false, 0⟩, .window 3000 (some 999) [], 3⟩ := by decide +kernel

/-- R52: a code equal to the upper level is not higher. -/
theorem test_gate_at_the_level :
    (after (.gate1End 3000) (inFlight (armed levelDefn) (.window 3000 (some 999) []))).engine =
      .busy ⟨.scheduled ⟨4, 2, 1034, false, 0⟩, .window 3000 (some 999) [.notHigher], 3⟩ := by decide +kernel

/-- R68: a code equal to low − 1 is BELOW; the first run is adopted (R72) and reported, INITIAL being in the set (R74). -/
theorem test_window_completion :
    let d := { levelDefn with style := .window window }
    let t := after (.scheduledCompletion 999) (inFlight (armed d) (.window 3000 (some 999) [.notHigher]))
    (t.probe 4).confirmed = .below ∧
      t.notices.map Notice.content = [.crossing 4 2 .unknown .below none false 1] := by decide +kernel

/-- Table 4-1 at its edges, for high 3000, low 1000 and hysteresis 40. -/
theorem test_classification :
    window.classify .inside 3001 = .above ∧ window.classify .inside 3000 = .inside ∧
    window.classify .above 2961 = .above ∧ window.classify .above 2960 = .inside ∧
    window.classify .below 1039 = .below ∧ window.classify .below 1040 = .inside ∧
    window.classify .unknown 999 = .below ∧ window.classify .unknown 1000 = .inside := by decide +kernel

/-- R72: settle 3 takes three consecutive runs (4.8). -/
theorem test_settling :
    settleVerdict 3 .inside none .above = (.inside, some ⟨.above, 1⟩) ∧
    settleVerdict 3 .inside (some ⟨.above, 2⟩) .above = (.above, none) ∧
    settleVerdict 3 .inside (some ⟨.above, 2⟩) .below = (.inside, some ⟨.below, 1⟩) ∧
    settleVerdict 3 .inside (some ⟨.above, 2⟩) .inside = (.inside, none) := by decide +kernel

/-- R86: with tolerance 20 the codes 2438 and 2478 pass, and 2437 and 2479 fail. -/
theorem test_check_tolerance :
    checkPasses 20 2438 ∧ checkPasses 20 2478 ∧ ¬ checkPasses 20 2437 ∧ ¬ checkPasses 20 2479 := by decide +kernel

/-- R51: out of the range of the references. -/
theorem test_convert_clamps : convert (-3) = 0 ∧ convert 5000 = 4095 := by decide +kernel

/-- R54: a one-shot answers its MEASURE. -/
theorem test_one_shot :
    (after (.oneShotCompletion 77) { State.reset with
      engine := .busy ⟨.oneShot ⟨4, 0⟩, .level, 3⟩, parked := [⟨9, .measure 4, 0, .awaited⟩], nextLink := 1 }).replies =
    [⟨9, 0x16, .measured 4 77 false⟩] := by decide +kernel

/-- R58: QUIESCE returns a one-shot in flight to the head of the queue. -/
theorem test_quiesce_requeues :
    (after .quiesceAsserted { State.reset with
      engine := .busy ⟨.oneShot ⟨4, 0⟩, .level, 3⟩, parked := [⟨9, .measure 4, 0, .awaited⟩], nextLink := 1 }).dueQueue =
    [.oneShot ⟨4, 0⟩] := by decide +kernel

/-- R59: the release is reported. -/
theorem test_quiesce_released :
    (after .quiesceReleased { State.reset with engine := .quiesced }).notices.map Notice.content =
    [.condition (.startup .power false), .condition .quiesceOff] := by decide +kernel

/-! ### Probes and history (Chapters 1 and 6) -/

/-- R11: DEFINE of 1.10 takes 16 of the 512 slots. -/
theorem test_define :
    let t := after .define (holding .define definePayload)
    t.freeCount = 496 ∧ (t.probe 5).state = .defined ∧ t.replies = [⟨7, 0x10, .defined 1 496⟩] := by decide +kernel

/-- R6: period 0 violates field 3. -/
theorem test_define_bad_period :
    (after .define (holding .define [5, 3, 0x11, 0, 0, 0, 10, 0x0B, 0xB8, 0x03, 0xE8, 40, 3, 0, 16, 12, 5])).replies =
    [⟨7, 0x10, .badValue 3⟩] := by decide +kernel

/-- R12: ARM while STOPPED gives no next due. -/
theorem test_arm :
    let t := after .arm { State.reset.setProbe 4 { armed levelDefn with state := .defined, nextDue := none } with
      inbox := [⟨0x11, 7, [4], false⟩] }
    (t.probe 4).state = .armed ∧ t.replies = [⟨7, 0x11, .armed 3 none⟩] := by decide +kernel

/-- R13: DISARM keeps the generation. -/
theorem test_disarm :
    let t := after .disarm { running (armed levelDefn) with inbox := [⟨0x12, 7, [4], false⟩] }
    (t.probe 4).state = .defined ∧ (t.probe 4).nextDue = none ∧ t.replies = [⟨7, 0x12, .generation 2⟩] := by
  decide +kernel

/-- R14, R15: DELETE answers itself, then the MEASURE parked on the probe. -/
theorem test_delete :
    (after .delete { running (armed levelDefn) with
      inbox := [⟨0x13, 7, [4], false⟩], parked := [⟨9, .measure 4, 0, .awaited⟩], freeCount := 508 }).replies =
    [⟨7, 0x13, .deleted 512⟩, ⟨9, 0x16, .aborted 4⟩] := by decide +kernel

/-- R17: SET_LIMITS gives a new generation and drops the queued entry. -/
theorem test_set_limits :
    let t := after .setLimits { running (armed levelDefn) with
      inbox := [⟨0x14, 7, [4, 0x0C, 0x80, 0x03, 0xE8, 40, 3], false⟩]
      dueQueue := [.scheduled ⟨4, 2, 1034, false, 0⟩] }
    t.dueQueue = [] ∧ (t.probe 4).generation = 3 ∧
      ((t.probe 4).defn.map Definition.style) = some (.level (some ⟨3200, 1000, 40, 3⟩)) := by decide +kernel

/-- R18: READ_PROBE of a FREE probe. -/
theorem test_read_probe : (after .readProbe (holding .readProbe [31])).replies = [⟨7, 0x15, .probe (Probe.cleared 0)⟩] := by
  decide +kernel

/-- R1: an id of 32 names no probe. -/
theorem test_no_probe : (after .readProbe (holding .readProbe [32])).replies = [⟨7, 0x15, .noProbe⟩] := by decide +kernel

/-- R55: MEASURE is parked, and its ONE_SHOT entry stands ahead of the SCHEDULED. -/
theorem test_measure :
    (after .measure { running (armed levelDefn) with
      inbox := [⟨0x16, 7, [4], false⟩], dueQueue := [.scheduled ⟨4, 2, 1034, false, 0⟩] }).dueQueue =
    [.oneShot ⟨4, 0⟩, .scheduled ⟨4, 2, 1034, false, 0⟩] := by decide +kernel

/-- R103: a count of 7 violates field 14. -/
theorem test_read_history_count :
    (after .readHistory { running (armed levelDefn) with inbox := [⟨0x30, 7, [4, 0, 7, 0], false⟩] }).replies =
    [⟨7, 0x30, .badValue 14⟩] := by decide +kernel

/-- R100: a full ring pushes its oldest record out and counts it. -/
theorem test_ring_full :
    let h : Tick → HistoryRecord := fun k => ⟨k, .level 5 none, false, false⟩
    let p := { armed levelDefn with ring := [h 1, h 2, h 3, h 4] }
    p.appendRecord 4 (h 5) = { p with ring := [h 2, h 3, h 4, h 5], overwritten := 1 } := by decide +kernel

/-! ### Notices (Chapters 7 and 8) -/

/-- R126: the STARTUP notice stands in the queue after a power reset, and the next number is 1. -/
theorem test_startup : (after (.powerReset (.ends ⟨true, true, true, true⟩)) State.reset).notices = [Notice.startup .power true] ∧
    (after (.powerReset (.ends ⟨true, true, true, true⟩)) State.reset).nextSeq = 1 ∧
    (after (.powerReset (.ends ⟨true, true, true, true⟩)) State.reset).rate = .r460800 := by decide +kernel

/-- R125, R156: while RESET# is low ALERT# is released and TXD high, whatever stood before, and no tick is counted. -/
theorem test_reset_interval :
    let s := after (.pinReset .begins) { State.reset with
      counter := 5, transmitter := .sending (.reply ⟨7, 0x01, .busy⟩) }
    State.reset.alertAsserted = true ∧ s.alertAsserted = false ∧ s.txdHigh 0 = true ∧ after .tick s = s ∧
    (after (.pinReset (.ends ⟨false, false, false, true⟩)) s).alertAsserted = true := by decide +kernel

/-- R60, R21, R144: at the beginning of a pin reset the in-flight record, the due queue and the parked list are emptied and the
transmitter is stopped; the engine enters QUIESCED at the end alone. -/
theorem test_reset_empties :
    let s := after (.pinReset .begins) { inFlight (armed levelDefn) .level with
      dueQueue := [.oneShot ⟨4, 0⟩], parked := [⟨9, .measure 4, 0, .awaited⟩], nextLink := 1
      transmitter := .sending (.reply ⟨7, 0x01, .busy⟩), mute := true, ackTimeout := 99 }
    s.engine = .idle ∧ s.dueQueue = [] ∧ s.parked = [] ∧ s.transmitter = .free ∧ s.mute = false ∧ s.ackTimeout = 32 ∧
    (after (.pinReset (.ends ⟨false, false, true, true⟩)) s).engine = .quiesced := by decide +kernel

/-- R125, R156: a power reset that ends while RESET# is low releases no line; the end of RESET# does, with cause PIN. -/
theorem test_overlapping_resets :
    let pins : ResetPins := ⟨false, false, false, true⟩
    let s := after (.powerReset (.ends pins)) (after (.pinReset .begins) (after (.powerReset .begins) State.reset))
    s.alertAsserted = false ∧ (after .noticeTransmissionStart s).transmitter = .free ∧ s.pinReset = true ∧
    (after (.pinReset (.ends pins)) s).alertAsserted = true ∧ (after (.pinReset (.ends pins)) s).resetCause = .pin := by
  decide +kernel

/-- R126: a pin reset keeps nothing and names its cause. -/
theorem test_pin_reset : (after (.pinReset (.ends ⟨false, true, false, true⟩)) (running (armed levelDefn))).resetCause = .pin ∧
    (after (.pinReset (.ends ⟨false, true, false, true⟩)) (running (armed levelDefn))).probe 4 = Probe.cleared 0 := by
  decide +kernel

/-- R119: a CONDITION evicts the OVERRUN created last and carries the gap. -/
theorem test_eviction :
    let t := ({ State.reset with notices := fullQueue, nextSeq := 24 }).submit (.condition .quiesceOn)
    t.notices = fullQueue.dropLast ++ [⟨24, .condition .quiesceOn, 0, 1, .queued, 0⟩] ∧ t.dropped = 1 := by
  decide +kernel

/-- R133: the eligible notice is sent with its stamp. -/
theorem test_notice_start :
    (after .noticeTransmissionStart { State.reset with counter := 5 }).transmitter =
      .sending (.notice (Notice.startup .power false)) ∧
    (after .noticeTransmissionStart { State.reset with counter := 5 }).notices.map Notice.delivery = [.sent 5] := by
  decide +kernel

/-- R137: at age 32, the timeout after a reset, a SENT notice returns to QUEUED; R139: with retries 4 it sets MUTE. -/
theorem test_timeout :
    let t := after .noticeTimeout { State.reset with
      counter := 32, owed := ⟨false, true, false, none⟩
      notices := [⟨0, .condition .quiesceOn, 0, 0, .sent 0, 3⟩, ⟨1, .condition .quiesceOff, 0, 0, .sent 1, 3⟩] }
    t.mute = true ∧ t.notices.map Notice.delivery = [.queued, .sent 1] := by decide +kernel

/-- R135: a number listed twice is found once. -/
theorem test_ack : (after .ack (holding .ack [0, 0, 0, 0])).replies = [⟨7, 0x40, .acked 1 1⟩] ∧
    (after .ack (holding .ack [0, 0, 0, 0])).notices = [] := by decide +kernel

/-- R123: HOLD of class 4 violates field 16; of class 3 it releases ALERT#. -/
theorem test_hold : (after .hold (holding .hold [0x10])).replies = [⟨7, 0x41, .badValue 16⟩] ∧
    (after .hold (holding .hold [8])).alertAsserted = false ∧ State.reset.alertAsserted = true := by decide +kernel

/-! ### Link and processor (Chapters 9 and 10) -/

/-- R145: the character of 0x0B on the line, start bit low, least significant data bit first, stop bit high. -/
theorem test_character :
    (Character.ofByte 0x0B).levels = [false, true, true, false, true, false, false, false, false, true] ∧
    (Character.mk #v[true, true, false, true, false, false, false, false] true).byte = 0x0B := by decide +kernel

/-- R145: the first ten bit times of a frame are its SYNC; the eleventh is the start bit of LEN. -/
theorem test_txd :
    let s : State := { State.reset with transmitter := .sending (.reply ⟨7, 0x01, .busy⟩) }
    (List.range 11).map s.txdHigh = [false, true, true, false, false, false, false, true, true, true, false] := by
  decide +kernel

/-- R149: a LEN of 0xC3 is a length error and then the SYNC of a frame. -/
theorem test_length_error :
    let t := after (.byteArrival (Character.ofByte 0xC3).data true) { State.reset with receiver := ⟨.header, [], 3, 0⟩ }
    t.counters.lengthErrors = 1 ∧ t.receiver = ⟨.header, [], 3, 0⟩ := by decide +kernel

/-- R151: the second quiet tick abandons the frame. -/
theorem test_gap_error :
    let t := after .gapError { State.reset with
      receiver := ⟨.body, [0, 1, 7], 2, 1⟩, owed := ⟨false, false, true, none⟩ }
    t.counters.gapErrors = 1 ∧ t.receiver = Receiver.hunting := by decide +kernel

/-- R152: HELLO with a payload is answered BAD_FRAME. -/
theorem test_receipt_bad_frame :
    (after .receipt { State.reset with owed := ⟨false, false, false, some (0x01, 7, [0])⟩ }).replies =
    [⟨7, 0x01, .badFrame⟩] := by decide +kernel

/-- R155: a break empties the inbox and holds the transmitter; at its end the transmitter is FREE. -/
theorem test_break :
    (after .breakDetected (holding .hello [])).inbox = [] ∧ (after .breakDetected (holding .hello [])).transmitter = .held ∧
    (after .endOfBreak { State.reset with transmitter := .held }).transmitter = .free := by decide +kernel

/-- R157: the oldest reply is sent first. -/
theorem test_reply_start :
    (after .replyTransmissionStart { State.reset with replies := [⟨1, 0x01, .busy⟩, ⟨2, 0x01, .busy⟩] }).transmitter =
    .sending (.reply ⟨1, 0x01, .busy⟩) := by decide +kernel

/-- R171: the completion of the SOFT_RESET reply resets the part and keeps the rate. -/
theorem test_soft_reset :
    let t := after .transmissionCompletion { running (armed levelDefn) with
      rate := .r115200, transmitter := .sending (.reply ⟨7, 0x5F, .softReset⟩), softResetPending := true }
    t.resetCause = .soft ∧ t.rate = .r115200 ∧ t.scheduler = .stopped ∧ t.softResetPending = false := by decide +kernel

/-- R168: the data of HELLO after a power reset. -/
theorem test_hello : (after .hello (holding .hello [])).replies.map Reply.payload =
    [[0x00, 0x01, 1, 0, 32, 2, 0, 24, 4, 4, 8, 2, 0, 0x10, 0x20, 0, 0, 0]] := by decide +kernel

/-- R141: LINK_CONFIG of 7 ticks violates field 17, and 0 reads the timeout of 32. -/
theorem test_link_config : (after .linkConfig (holding .linkConfig [7])).replies = [⟨7, 0x50, .badValue 17⟩] ∧
    (after .linkConfig (holding .linkConfig [0])).replies = [⟨7, 0x50, .linkConfig 32 false .r9600 0⟩] := by decide +kernel

/-- R91: CHECK_CONFIG replaces the tolerance. -/
theorem test_check_config : (after .checkConfig (holding .checkConfig [255])).tolerance = 255 := by decide +kernel

/-- R169: READ_COUNTERS reports before it clears. -/
theorem test_read_counters :
    let t := after .readCounters { holding .readCounters [1] with counters := ⟨1, 2, 3, 4⟩, dropped := 5 }
    t.replies = [⟨7, 0x52, .counters ⟨1, 2, 3, 4⟩ 5⟩] ∧ t.counters = ⟨0, 0, 0, 0⟩ ∧ t.dropped = 0 := by decide +kernel

/-- R170: SOFT_RESET makes the processor pending. -/
theorem test_soft_reset_pending : (after .softReset (holding .softReset [])).softResetPending = true := by decide +kernel

/-- R165: of two waiting outcomes the one fixed first is queued. -/
theorem test_parked_reply :
    (after .parkedReplyQueued { State.reset with
      parked := [⟨1, .measure 3, 0, .fixed 5 .busy⟩, ⟨2, .pause, 1, .fixed 4 .superseded⟩] }).replies =
    [⟨2, 0x21, .superseded⟩] := by decide +kernel

/-- The table gives its rows no bits: a word spells no command and puts none in front (log 13). -/
theorem test_words : decodeTableWord 8 0 = none ∧ State.reset.withFetchWord 8 0 = State.reset := by decide +kernel

/-! ### Witnesses: states and operands that meet the hypotheses of the statements, clause by clause -/

/-- The taking of a command in a state of plain facts. -/
theorem taking {s : State} {c : HostCommand} {f : Frame} {rest : List Frame} (ho : s.Quiet)
    (hi : s.inbox = f :: rest) (hk : f.kind = c.code) (hr : s.replies.length < 8)
    (hp : (s.parked.all fun e => e.awaited && decide (e.tag ≠ f.tag)) = true) (hs : s.softResetPending = false) :
    s.Taking c f rest := by
  simp only [List.all_eq_true, Bool.and_eq_true, decide_eq_true_eq, ParkedEntry.awaited] at hp
  exact ⟨⟨ho, hi, hk, hr, fun e he => (hp e he).1, hs⟩, fun e he => (hp e he).2⟩

theorem witness_StepRunsTheFrontCommand : ({ State.reset with pending := [.tick, .take] }).pending = .tick :: [.take] := rfl

/-- A tick's examinations still owed, one quiet tick after a SYNC, at a crystal period of the divider. -/
def owing (divider : BitVec 8) : State :=
  { State.reset with divider := divider, owed := Owed.tick, receiver := ⟨.header, [], 3, 1⟩ }

theorem witness_TickEvery256CrystalPeriods :
    (State.reset.Quiet ∧ State.reset.pending = [] ∧ State.reset.divider = 0 ∧ (255 : Nat) ≤ 255) ∧
    (({ State.reset with pinReset := true } : State).pending = [] ∧
      ({ State.reset with pinReset := true } : State).inReset = true) ∧
    ((owing 254).pending = [] ∧ (owing 254).inReset = false ∧ (owing 254).settled.divider.toNat < 255) ∧
    ((owing 255).inReset = false ∧ (owing 255).settled.divider.toNat = 255) := by
  refine ⟨⟨rfl, rfl, rfl, le_refl _⟩, ⟨rfl, rfl⟩, ?_, ?_⟩ <;> decide +kernel

/-- R22, R151: the examinations that a tick owes are made before the crystal period that ends the next tick. -/
theorem test_owed_work_before_the_period :
    (match step (owing 255) with
    | .next t => t.counter = 1 ∧ t.counters.gapErrors = 1 ∧ t.owed = Owed.tick
    | .fault _ | .refused _ => False) := by
  show (_ : State).counter = 1 ∧ _
  decide +kernel

theorem witness_OwedWorkComesFirst :
    let s : State := { State.reset with owed := ⟨true, true, true, some (0x01, 7, [])⟩ }
    (s.inReset = false ∧ ¬ s.Quiet ∧ Instr.tick ≠ .dueCheck ∧ Instr.tick ≠ .noticeTimeout ∧ Instr.tick ≠ .gapError ∧
      Instr.tick ≠ .receipt) ∧ State.reset.Quiet := by
  refine ⟨⟨rfl, fun h => ?_, by decide⟩, rfl⟩
  exact absurd (congrArg Prod.snd h) (by decide)

theorem witness_HardResetsLeaveTheResetValues : State.reset.Quiet ∧
    ({ State.reset with pinReset := true } : State).inReset = true ∧
    ({ State.reset with powerReset := true } : State).powerReset = true ∧
    ({ State.reset with pinReset := true } : State).pinReset = true ∧
    (∀ e, Instr.tick ≠ .powerReset e) ∧ ∀ e, Instr.tick ≠ .pinReset e :=
  ⟨rfl, rfl, rfl, rfl, fun _ => by simp, fun _ => by simp⟩

/-- The SOFT_RESET reply in transmission. -/
def softResetSent : State := { State.reset with transmitter := .sending (.reply ⟨7, 0x5F, .softReset⟩) }

theorem witness_SoftResetTakesEffectAtItsReply : softResetSent.Quiet ∧
    softResetSent.transmitter = .sending (.reply ⟨7, 0x5F, .softReset⟩) ∧
    exec (.pinReset (.ends ⟨true, true, softResetSent.engine = .quiesced, softResetSent.rxdHigh⟩)) softResetSent =
      .next (softResetSent.hardReset .pin ⟨true, true, softResetSent.engine = .quiesced, softResetSent.rxdHigh⟩) :=
  ⟨rfl, rfl, rfl⟩

theorem witness_ResetMeetsTheInvariants : State.reset.pending = [] ∧ State.reset.pinReset = false := ⟨rfl, rfl⟩

theorem witness_TickAdvancesTheCounter : ({ State.reset with counter := 4294967295 }).Quiet := rfl

/-- Probes 4 and 5 are due; a run of probe 4 is queued, of a probe at its last overrun that reports it. -/
def twoDue : State :=
  { (running { armed levelDefn with overruns := 65535 }).setProbe 5 (armed levelDefn) with
    owed := ⟨true, true, true, none⟩, dueQueue := [.scheduled ⟨4, 1, 906, false, 0⟩] }

theorem witness_DueCheckServesEveryDueProbe :
    (twoDue.inReset = false ∧ twoDue.owed.dueCheck = true ∧ twoDue.scheduler = .running ∧
      twoDue.dueQueue.Pairwise twoDue.MayPrecede) ∧
    (twoDue.DueNow 4 levelDefn ∧ twoDue.Outstanding 4 ∧ levelDefn.notify.overrun = true ∧
      (twoDue.probe 4).overrunLatch = false) ∧ (twoDue.DueNow 5 levelDefn ∧ ¬ twoDue.Outstanding 5) ∧
    (∀ d, ¬ twoDue.DueNow 6 d) ∧ State.reset.owed.dueCheck = false ∧
    (({ State.reset with owed := Owed.tick }).owed.dueCheck = true ∧
      ({ State.reset with owed := Owed.tick }).scheduler ≠ .running) := by
  refine ⟨⟨rfl, rfl, rfl, List.pairwise_singleton _ _⟩,
    ⟨⟨rfl, rfl, rfl⟩, .inl ⟨_, List.mem_singleton.2 rfl, rfl⟩, rfl, rfl⟩, ⟨⟨rfl, rfl, rfl⟩, ?_⟩, fun d h => ?_, rfl,
    rfl, by decide⟩
  · rintro (⟨e, he, h⟩ | ⟨e, op, c, h, -⟩)
    · simp only [twoDue, List.mem_singleton, DueEntry.scheduled.injEq] at he
      subst he; exact absurd h (by decide)
    · exact absurd (show Engine.idle = _ from h) (by simp)
  · exact absurd (show ProbeState.free = .armed from h.1) (by decide)

theorem witness_AlignmentIsTheFirstValueAfter :
    (0 : Half).toNat < (1 : Half).toNat ∧ (65534 : Half).toNat < (65535 : Half).toNat ∧
    (1 ≤ 1 ∧ 1 < (align 4294967295 100 7 - 4294967295).toNat) := by decide +kernel

theorem witness_DueQueueStaysOrdered :
    let s := { running (armed levelDefn) with dueQueue := [.oneShot ⟨4, 0⟩, .scheduled ⟨4, 2, 1034, false, 0⟩] }
    s.dueQueue.Pairwise s.MayPrecede ∧ ∀ e, DueEntry.scheduled e ∈ s.dueQueue → e.probe ≠ 5 := by
  refine ⟨by simp [State.MayPrecede], fun e he => ?_⟩
  simp only [List.mem_cons, reduceCtorEq, DueEntry.scheduled.injEq, List.not_mem_nil, or_false, false_or] at he
  subst he; decide

/-- The part with room for one more notice. -/
def roomForOne : State := { State.reset with notices := fullQueue.dropLast }

theorem witness_SubmissionOutcomes :
    let c := NoticeContent.overrun 1 23 2
    let full : State := { State.reset with notices := fullQueue }
    -- coalescing at a full queue
    (full.notices = fullQueue.dropLast ++ notice 23 (.overrun 1 23 1) :: [] ∧ c.key? ≠ none ∧
      ∀ m ∈ fullQueue.dropLast, m.delivery = .queued → m.content.key? ≠ c.key?) ∧
    -- the last place, a full queue for a CONDITION, and a full queue for an OVERRUN of another probe
    ((∀ n ∈ roomForOne.notices, n.delivery = .queued → c.key? = none ∨ n.content.key? ≠ c.key?) ∧
      roomForOne.notices.length < 24 ∧ ∀ n ∈ roomForOne.notices, n.seq ≠ 23) ∧
    ((∀ n ∈ full.notices, n.delivery = .queued → (NoticeContent.condition .quiesceOn).key? = none ∨ n.content.key? ≠
        (NoticeContent.condition .quiesceOn).key?) ∧
      full.notices.length = 24 ∧ full.notices = fullQueue.dropLast ++ notice 23 (.overrun 1 23 1) :: [] ∧
      (notice 23 (.overrun 1 23 1)).content.cls ≠ .condition) ∧
    (∀ n ∈ full.notices, n.delivery = .queued → (NoticeContent.overrun 2 0 1).key? = none ∨ n.content.key? ≠
        (NoticeContent.overrun 2 0 1).key?) ∧ 24 ≤ full.notices.length := by
  refine ⟨⟨?_, ?_, ?_⟩, ⟨?_, ?_, ?_⟩, ⟨?_, ?_, ?_, ?_⟩, ?_, ?_⟩ <;> decide +kernel

/-- R114: the next sequence number 65535 and its successor 0 are carried, so the notice is numbered 1. -/
theorem test_carried_numbers :
    let t := ({ State.reset with
      nextSeq := 65535
      notices := [notice 65535 (.condition .quiesceOn), notice 0 (.condition .quiesceOff)] }).submit (.overrun 1 1 1)
    t.notices.map Notice.seq = [65535, 0, 1] ∧ t.nextSeq = 2 := by decide +kernel

/-- R114, R119: the number of the evicted notice is carried no more. -/
theorem test_evicted_number :
    let t := ({ State.reset with notices := fullQueue, nextSeq := 22 }).submit (.condition .quiesceOn)
    t.notices.map Notice.seq = (List.range 24).map (BitVec.ofNat 16) ∧ t.nextSeq = 24 := by decide +kernel

/-- Two SENT notices of one key, old enough to return, beside one that is not; and none. -/
theorem witness_TimeoutsReturnOldNotices :
    let s : State := { State.reset with
      counter := 32, owed := Owed.tick
      notices := [⟨0, .overrun 4 2 1, 0, 0, .sent 0, 3⟩, ⟨1, .overrun 4 2 2, 0, 0, .sent 0, 0⟩,
        ⟨2, .condition .quiesceOff, 0, 0, .sent 1, 3⟩] }
    (s.inReset = false ∧ s.owed.timeouts = true ∧ ∃ n ∈ s.notices, n.delivery = .sent 0 ∧
      s.ackTimeout.toNat ≤ (s.counter - 0).toNat) ∧
    (∀ n ∈ ({ s with notices := [notice 0 (.condition .quiesceOn)] } : State).notices, n.delivery = .queued) ∧
    State.reset.owed.timeouts = false := by
  refine ⟨⟨rfl, rfl, _, List.mem_cons_self, rfl, ?_⟩, ?_, rfl⟩ <;> decide

theorem witness_MergingKeepsTheEarliestOfEachKey :
    let crossing : Half → RawVerdict → Bool → Byte → Notice := fun seq new suspect merged =>
      notice seq (.crossing 1 1 .inside new none suspect merged)
    let l := [crossing 0 .above true 200, notice 1 (.condition .quiesceOn), crossing 2 .below false 100]
    (∃ n ∈ l, n.delivery ≠ .queued ∨ n.content.key? = none) ∧
    (l = [] ++ crossing 0 .above true 200 :: [notice 1 (.condition .quiesceOn), crossing 2 .below false 100] ∧
      (crossing 0 .above true 200).content.key? ≠ none) ∧
    [crossing 0 .above true 200, notice 1 (.condition .quiesceOn)].Pairwise fun a b => a.delivery = .queued →
      b.delivery = .queued → a.content.key? = b.content.key? → a.content.key? = none := by
  refine ⟨by decide, by decide, List.pairwise_pair.2 fun _ _ h => ?_⟩
  exact absurd h (by decide)

/-- R122: the kept CROSSING has the latest verdict, is suspect if one was, and its counts stop at 255. -/
theorem test_merge :
    let crossing : Half → RawVerdict → Bool → Byte → Notice := fun seq new suspect merged =>
      notice seq (.crossing 1 1 .inside new none suspect merged)
    mergeQueued [crossing 0 .above true 200, crossing 2 .below false 100] = [crossing 0 .below true 255] := by
  decide +kernel

theorem witness_NoticeStartSendsTheEligibleNotice :
    let s : State := { State.reset with
      holdSet := ⟨false, false, true, false⟩
      notices := (List.replicate 3 ⟨9, .condition .quiesceOn, 0, 0, .sent 0, 0⟩) ++
        [notice 1 (.overrun 1 1 1), notice 2 (.condition .quiesceOn)] }
    (s.Quiet ∧ s.holdSet.has (NoticeContent.condition .quiesceOn).cls = false ∧ s.mute = false ∧ s.sentCount < 4 ∧
      s.transmitter = .free ∧ s.replies = []) ∧ ({ State.reset with notices := [] }).Quiet ∧
    ∀ n ∈ ({ State.reset with notices := [] } : State).notices, n.delivery = .queued →
      State.reset.holdSet.has n.content.cls = true := by
  refine ⟨⟨rfl, ?_⟩, rfl, ?_⟩ <;> decide +kernel

theorem witness_ReceiverDeliversEverySoundFrame :
    let payload := List.replicate 56 (0xC3 : Byte)
    let s : State := { State.reset with
      pending := (frameBytes 0x10 7 payload).map fun b => .byteArrival (Character.ofByte b).data true }
    s.Quiet ∧ payload.length ≤ 56 ∧ s.receiver.phase = .hunt ∧ s.transmitter ≠ .held := by
  refine ⟨rfl, ?_⟩; decide +kernel

theorem witness_ByteArrivalFollowsTheReceiver :
    let at_ : ReceiverPhase → List Byte → Nat → State := fun phase bytes n =>
      { State.reset with receiver := ⟨phase, bytes, n, 0⟩ }
    (State.reset.Quiet ∧ State.reset.transmitter ≠ .held ∧ State.reset.receiver.phase = .hunt ∧
      (Character.ofByte 0xC3).stopHigh = true) ∧
    ((at_ .header [] 3).receiver.phase = .header ∧ (Character.ofByte 56).byte.toNat ≤ 56 ∧
      56 < (Character.ofByte 57).byte.toNat) ∧
    (at_ .header [0] 2).receiver.bytes = [0] ∧ (at_ .header [0, 1] 1).receiver.bytes = [0, 1] ∧
    ((at_ .body [0, 1, 7] 2).receiver.phase = .body ∧ (at_ .body [0, 1, 7] 2).receiver.expected = 0 + 2) ∧
    ((at_ .body [0, 1, 7, 0x8F] 1).receiver.bytes = 0 :: 1 :: 7 :: [] ++ [0x8F] ∧
      fcs [0, 1, 7] = (0x8F : Byte) ++ (Character.ofByte 0x4A).byte ∧
      fcs [0, 1, 7] ≠ (0x8F : Byte) ++ (Character.ofByte 0x4B).byte) ∧
    ({ Character.ofByte 0 with stopHigh := false } : Character).stopHigh = false ∧
    ({ State.reset with transmitter := .held } : State).transmitter = .held := by
  refine ⟨⟨rfl, ?_⟩, ?_⟩ <;> decide +kernel

theorem witness_SecondQuietTickAbandonsTheFrame :
    let s : Nat → State := fun q => { State.reset with receiver := ⟨.header, [0], 2, q⟩, owed := Owed.tick }
    ((s 0).inReset = false ∧ (s 0).owed.gap = true ∧ (s 0).receiver.phase ≠ .hunt ∧ (s 0).receiver.quiet = 0) ∧
    ((s 1).receiver.phase ≠ .hunt ∧ (s 1).receiver.quiet = 1) ∧
    (({ State.reset with owed := Owed.tick }).receiver.phase = .hunt ∧ State.reset.owed.gap = false) := by decide +kernel

theorem witness_ReceiptOfAGoodFrame :
    let s : Byte → List Byte → Nat → Nat → State := fun kind payload inbox replies => { State.reset with
      owed := ⟨false, false, false, some (kind, 7, payload)⟩
      inbox := List.replicate inbox ⟨0x01, 1, [], false⟩, replies := List.replicate replies ⟨1, 0x01, .busy⟩ }
    (State.reset.inReset = false ∧ State.reset.owed.receipt = none) ∧
    ((s 0x02 [] 0 7).inReset = false ∧ (s 0x02 [] 0 7).owed.receipt = some (0x02, 7, []) ∧
      (¬ ∃ c : HostCommand, c.code = 0x02 ∧ c.lenOk 0 = true) ∧ (s 0x02 [] 0 7).replies.length < 8) ∧
    8 ≤ (s 0x02 [] 0 8).replies.length ∧ (s 0x01 [] 3 0).inbox.length < 4 ∧
    (∃ c : HostCommand, c.code = 0x01 ∧ c.lenOk ([] : List Byte).length = true) ∧
    (4 ≤ (s 0x01 [] 4 7).inbox.length ∧ (s 0x01 [] 4 7).replies.length < 8) ∧
    (4 ≤ (s 0x01 [] 4 8).inbox.length ∧ 8 ≤ (s 0x01 [] 4 8).replies.length) := by
  refine ⟨⟨rfl, rfl⟩, ⟨rfl, rfl, ?_, by decide⟩, by decide, by decide, ⟨.hello, by decide⟩, by decide, by decide⟩
  rintro ⟨c, h, -⟩; revert h; cases c <;> decide

theorem witness_BreakMakesOneLinkReset :
    let s : State := { State.reset with notices := [⟨0, .overrun 1 1 1, 0, 0, .sent 0, 1⟩, notice 1 (.overrun 1 1 2)] }
    (s.Quiet ∧ s.transmitter ≠ .held ∧ ∃ n ∈ s.notices, n.delivery ≠ .queued) ∧
    (¬ ∃ n ∈ State.reset.notices, n.delivery ≠ .queued) ∧ ({ State.reset with transmitter := .held }).Quiet := by
  refine ⟨⟨rfl, ?_⟩, ?_, rfl⟩ <;> decide +kernel

theorem witness_RepliesLeaveInOrder :
    ({ State.reset with replies := [⟨1, 0x01, .busy⟩] }).Quiet ∧ State.reset.replies = [] ∧
    (({ State.reset with transmitter := .sending (.reply ⟨1, 0x01, .busy⟩) } : State).Quiet ∧ ∀ tag code, TxFrame.reply ⟨1, 0x01, .busy⟩ ≠ .reply ⟨tag, code, .softReset⟩) ∧
    ∀ f, State.reset.transmitter ≠ .sending f := by
  refine ⟨rfl, rfl, ⟨rfl, fun _ _ h => ?_⟩, fun f h => ?_⟩ <;> cases h

theorem witness_FramesOnTheLine :
    let r : Reply := ⟨7, 0x30, .history 6 0 (List.replicate 6 ⟨0, .level 0 none, false, false⟩)⟩
    let s : State := { State.reset with transmitter := .sending (.reply ⟨7, 0x01, .busy⟩) }
    (s.inReset = false ∧ s.transmitter = .sending (.reply ⟨7, 0x01, .busy⟩) ∧
      (TxFrame.reply ⟨7, 0x01, .busy⟩).wire = [0xC3, 2, 0x81, 7, 1] ++ 1 ::
        bytes16 (fcs [2, 0x81, 7, 1, 1])) ∧ State.reset.transmitter = .free ∧
    ((Probe.cleared 0).state = .free ∧ (armed levelDefn).state ≠ .free ∧ (armed levelDefn).defn = some levelDefn) ∧
    (notice 23 (.overrun 1 2 3)).content = .overrun 1 2 3 ∧
    ∀ fill overwritten records, r.body = .history fill overwritten records → records.length ≤ 6 := by
  intro r s
  refine ⟨⟨rfl, rfl, by decide +kernel⟩, rfl, ⟨rfl, by decide, rfl⟩, rfl, ?_⟩
  intro fill overwritten records h
  have : records = List.replicate 6 ⟨0, .level 0 none, false, false⟩ := by
    injection h with _ _ h; exact h.symm
  simp [this]

/-- A drain with two PAUSEs awaited and one place in the reply queue. -/
def draining (s : State) : State :=
  { s with
    scheduler := .draining, parked := [⟨8, .pause, 0, .awaited⟩, ⟨9, .measure 4, 1, .awaited⟩, ⟨10, .pause, 2, .awaited⟩]
    nextLink := 3, replies := List.replicate 7 ⟨1, 0x01, .busy⟩ }

theorem draining_links (s : State) : (draining s).LinksDistinct := show [0, 1, 2].Nodup by decide

/-- R31, R164: the first PAUSE takes the place, the second waits. -/
theorem test_answerPauses :
    let t := after (.scheduledCompletion 5) (draining (inFlight { armed levelDefn with generation := 3 } .level))
    t.scheduler = .stopped ∧ t.replies.drop 7 = [⟨8, 0x21, .counter 1034⟩] ∧
    t.parked = [⟨9, .measure 4, 1, .awaited⟩, ⟨10, .pause, 2, .fixed 0 (.counter 1034)⟩] := by decide +kernel

theorem witness_QuiesceAbandonsTheOperation :
    let shot : State := { State.reset with
      engine := .busy ⟨.oneShot ⟨4, 0⟩, .level, 3⟩, parked := [⟨9, .measure 4, 0, .awaited⟩], nextLink := 1 }
    (State.reset.Quiet ∧ State.reset.engine = .idle) ∧
    ((inFlight (armed levelDefn) .level).Quiet ∧ (inFlight (armed levelDefn) .level).scheduler ≠ .draining) ∧
    ((draining (inFlight (armed levelDefn) .level)).Quiet ∧
      (draining (inFlight (armed levelDefn) .level)).scheduler = .draining ∧
      (draining (inFlight (armed levelDefn) .level)).LinksDistinct) ∧
    (shot.Quiet ∧ ∃ p ∈ shot.parked, p.link = 0 ∧ p.outcome = .awaited) ∧
    (¬ ∃ p ∈ ({ shot with parked := [] } : State).parked, p.link = 0 ∧ p.outcome = .awaited) ∧
    ({ State.reset with engine := .quiesced }).Quiet := by
  refine ⟨⟨rfl, rfl⟩, ⟨rfl, ?_⟩, ⟨rfl, rfl, ?_⟩, ⟨rfl, ?_⟩, ?_, rfl⟩
  case refine_2 => exact draining_links _
  all_goals decide +kernel

theorem witness_TakeStartsTheHeadOfTheQueue :
    let s : State := { running (armed levelDefn) with dueQueue := [.scheduled ⟨4, 2, 1034, false, 0⟩] }
    (s.Quiet ∧ s.engine = .idle ∧ s.dueQueue = .scheduled ⟨4, 2, 1034, false, 0⟩ :: [] ∧
      (s.probe 4).defn = some levelDefn) ∧ State.reset.dueQueue = [] := ⟨⟨rfl, rfl, rfl, rfl⟩, rfl⟩

theorem witness_Gate1RecordsItsAnswer :
    let s := inFlight (armed levelDefn) (.window 3000 (some 999) [])
    (s.Quiet ∧ s.engine = .busy ⟨.scheduled ⟨4, 2, 1034, false, 0⟩, .window 3000 (some 999) [], 3⟩) ∧
    ((0 : Int) ≤ 0 ∧ (4095 : Int) ≤ 4095) := ⟨⟨rfl, rfl⟩, by decide⟩

theorem witness_WindowAndLevelRunsAgree : (Window.mk 0 0 0 1).wellFormed = true ∧
    (Window.mk 4095 3840 255 8).wellFormed = true := by decide

theorem witness_ClassificationAndSettling :
    window.wellFormed = true ∧ 1 ≤ window.settle ∧ Verdict.above = RawVerdict.toVerdict .above ∧
    Verdict.inside ≠ RawVerdict.toVerdict .above ∧ some (Candidate.mk .above 2) = some ⟨.above, 2⟩ ∧
    ∀ n, (none : Option Candidate) ≠ some ⟨.above, n⟩ := by
  refine ⟨by decide, by decide, rfl, by decide, rfl, fun n h => ?_⟩; cases h

/-- The probe of the recording tests: LEVEL without a window, a ring of 4 and no watermark. -/
def plainDefn : Definition := { levelDefn with style := .level none, watermark := 0 }

theorem witness_CountedLevelRunIsRecorded :
    let s := inFlight (armed plainDefn) .level
    (s.Quiet ∧ s.engine = .busy ⟨.scheduled ⟨4, 2, 1034, false, 0⟩, .level, 3⟩ ∧
      (s.probe 4).state = .armed ∧ (s.probe 4).generation = 2 ∧ (s.probe 4).defn = some plainDefn ∧
      plainDefn.style = .level none ∧ (s.probe 4).mode = none) ∧
    (s.scheduler ≠ .draining ∧ 1 ≤ plainDefn.depth ∧ (s.probe 4).ring.length + 1 ≠ plainDefn.watermark) ∧
    (draining s).Quiet ∧ (draining s).scheduler = .draining ∧ (draining s).LinksDistinct := by
  refine ⟨⟨rfl, rfl, rfl, rfl, rfl, rfl, rfl⟩, ⟨by decide, ?_, ?_⟩, rfl, rfl, draining_links _⟩ <;> decide +kernel

theorem witness_StaleCompletionsAndDrains :
    let s : SchedulerState → State := fun st =>
      { inFlight { armed levelDefn with generation := 3 } .level with
        scheduler := st, parked := [⟨8, .pause, 0, .awaited⟩, ⟨9, .measure 4, 1, .awaited⟩], nextLink := 2 }
    ((s .running).Quiet ∧ Operation.level.result? 5 = some (.level 5) ∧
      ((s .running).probe 4).generation ≠ 2 ∧ (s .running).scheduler ≠ .draining) ∧
    ((s .draining).Quiet ∧ (s .draining).scheduler = .draining ∧
      (s .draining).LinksDistinct ∧ (∀ p ∈ (s .draining).parked, p.outcome = .awaited) ∧
      (s .draining).replies.length + (s .draining).parked.length ≤ 8) := by
  refine ⟨⟨rfl, ?_⟩, rfl, rfl, (show [0, 1].Nodup by decide), ?_⟩ <;> decide +kernel

/-- A LEVEL and a WINDOW run, the latter of an ADAPTIVE probe that does not escalate, that move the verdict; DRAINING. -/
theorem witness_CountedRunReportsItsMove :
    let w : Window := ⟨3000, 1000, 40, 1⟩
    let d : Style → Definition := fun st => { levelDefn with style := st }
    let op : Operation := .window 3000 (some 999) [.higher]
    let s := inFlight { armed (d (.level (some w))) with confirmed := .inside } .level
    let t := inFlight { armed (d (.window w)) with confirmed := .inside } op
    let u := inFlight { armed (d (.adaptive w 3)) with mode := some .watching } op
    (s.Quiet ∧ s.engine = .busy ⟨.scheduled ⟨4, 2, 1034, false, 0⟩, .level, 3⟩ ∧ (s.probe 4).state = .armed ∧
      (s.probe 4).generation = 2 ∧ (s.probe 4).defn = some (d (.level (some w))) ∧
      (d (.level (some w))).style.window? = some w ∧
      (settleVerdict 1 .inside none (w.classify .inside (convert 3001))).1 ≠ .inside ∧
      (d (.level (some w))).notify.crossing = true) ∧
    (t.Quiet ∧ (t.probe 4).defn = some (d (.window w)) ∧ op.result? 5 = some (.window .above) ∧
      (d (.window w)).style = .window w ∧ (settleVerdict 1 .inside none .above).1 ≠ .inside) ∧
    (u.Quiet ∧ (u.probe 4).defn = some (d (.adaptive w 3)) ∧ (u.probe 4).confirmed = .unknown) ∧
    (draining t).Quiet ∧ (draining t).scheduler = .draining ∧ (draining t).LinksDistinct := by
  refine ⟨⟨rfl, rfl, rfl, rfl, rfl, rfl, ?_, rfl⟩, ⟨rfl, rfl, rfl, rfl, ?_⟩, ⟨rfl, rfl, rfl⟩, rfl, rfl, draining_links _⟩ <;>
    decide +kernel

/-- R53, R99, R101: a WINDOW run of style WINDOW moves the verdict without a value, is recorded, and fills the ring to its
watermark. -/
theorem test_window_run_recorded :
    let d := { levelDefn with style := .window ⟨3000, 1000, 40, 1⟩, watermark := 1 }
    let t := after (.scheduledCompletion 5)
      (inFlight { armed d with confirmed := .inside } (.window 3000 (some 999) [.higher]))
    t.notices.map Notice.content = [.crossing 4 2 .inside .above none false 1, .watermark 4 2 1 4] ∧
    (t.probe 4).ring = [⟨1034, .window .above, false, false⟩] := by decide +kernel

theorem witness_WatermarkIsReported :
    let d : Definition := { plainDefn with depth := 1, watermark := 1 }
    let s := inFlight (armed d) .level
    s.Quiet ∧ s.engine = .busy ⟨.scheduled ⟨4, 2, 1034, false, 0⟩, .level, 3⟩ ∧ s.scheduler ≠ .draining ∧
    (s.probe 4).state = .armed ∧ (s.probe 4).generation = 2 ∧ (s.probe 4).defn = some d ∧ d.style = .level none ∧
    (s.probe 4).mode = none ∧ (s.probe 4).ring.length + 1 = d.watermark ∧ d.watermark ≤ d.depth ∧
    (s.probe 4).watermarkReached = false ∧ d.notify.watermark = true ∧
    ({ d with notify := ⟨false, false, false, false⟩ } : Definition).notify.watermark = false := by
  refine ⟨rfl, rfl, by decide, rfl, rfl, rfl, rfl, rfl, rfl, le_refl _, rfl, rfl, rfl⟩

theorem witness_CountedCheckMovesTheHealth :
    let d : Definition := { levelDefn with channel := 16, style := .check }
    let s : Health → State := fun h => { inFlight (armed d) .check with health := h }
    ((s .good).Quiet ∧ ((s .good).probe 4).state = .armed ∧
      ((s .good).probe 4).generation = 2 ∧ ((s .good).probe 4).defn = some d ∧ d.style = .check) ∧
    (s (.suspect false)).health = .suspect false ∧ (s (.suspect true)).health ≠ .good ∧
    ((convert 2478).toNat ≤ 2458 + (s .good).tolerance.toNat ∧ 2458 ≤ (convert 2478).toNat + (s .good).tolerance.toNat) ∧
    (¬ (convert 2479).toNat ≤ 2458 + (s .good).tolerance.toNat) ∧
    (draining (s .good)).Quiet ∧ (draining (s .good)).LinksDistinct := by
  refine ⟨⟨rfl, rfl, rfl, rfl, rfl⟩, rfl, by decide, ?_, ?_, rfl, draining_links _⟩ <;> decide +kernel

/-- R88, R99: the record of a failed check carries CHECK_FAIL and, the health having moved, SUSPECT. -/
theorem test_check_recorded :
    let d : Definition := { levelDefn with channel := 16, style := .check }
    ((after (.scheduledCompletion 2479) (inFlight (armed d) .check)).probe 4).ring =
      [⟨1034, .check 2479 true, true, false⟩] := by decide +kernel

theorem witness_EscalationRisesAndRunsDown :
    let d : Definition := { levelDefn with style := .adaptive window 3 }
    let d0 : Definition := { d with depth := 0, watermark := 0 }
    let op : Operation := .window 3000 (some 999) [.higher]
    let s := { inFlight { armed d with confirmed := .inside, mode := some .watching } op with
      dueQueue := [.scheduled ⟨5, 2, 1034, false, 0⟩] }
    let t := inFlight { armed d0 with confirmed := .inside, mode := some (.escalated 1) } .level
    (s.Quiet ∧ s.engine = .busy ⟨.scheduled ⟨4, 2, 1034, false, 0⟩, op, 3⟩ ∧ (s.probe 4).state = .armed ∧
      (s.probe 4).generation = 2 ∧ (s.probe 4).defn = some d ∧ d.style = .adaptive window 3) ∧
    (op.result? 5 = some (.window .above) ∧ s.scheduler = .running ∧ (s.probe 4).mode = some .watching ∧
      (s.probe 4).confirmed ≠ .unknown ∧ (s.probe 4).confirmed ≠ RawVerdict.toVerdict .above ∧
      s.dueQueue.Pairwise s.MayPrecede ∧ ∀ x ∈ s.dueQueue, ¬ x.isScheduledOf 4) ∧
    ((draining s).Quiet ∧ (draining s).scheduler = .draining ∧ (draining s).LinksDistinct) ∧
    (t.Quiet ∧ t.scheduler ≠ .draining ∧ d0.depth = 0 ∧ (t.probe 4).mode = some (.escalated 1) ∧ 1 ≤ 1 ∧
      (t.probe 4).confirmed = (window.classify (t.probe 4).confirmed (convert 2000)).toVerdict) := by
  refine ⟨⟨rfl, rfl, rfl, rfl, rfl, rfl⟩, ⟨rfl, rfl, rfl, ?_, ?_, List.pairwise_singleton _ _, ?_⟩,
    ⟨rfl, rfl, draining_links _⟩, rfl, ?_⟩ <;> decide +kernel

theorem witness_OneShotAnswersItsMeasure :
    let q : ParkedEntry := ⟨9, .measure 4, 0, .awaited⟩
    let s : State := { State.reset with
      engine := .busy ⟨.oneShot ⟨4, 0⟩, .level, 3⟩, nextLink := 1, parked := [q]
      replies := List.replicate 7 ⟨1, 0x01, .busy⟩ }
    (s.Quiet ∧ s.parked = [] ++ q :: [] ∧ q.link = 0 ∧ q.command = .measure 4 ∧ q.outcome = .awaited ∧
      (∀ p ∈ s.parked, p.outcome = .awaited) ∧ s.replies.length < 8) ∧
    (8 ≤ ({ s with replies := List.replicate 8 ⟨1, 0x01, .busy⟩ } : State).replies.length ∧
      ∃ p ∈ ({ s with parked := [q, ⟨8, .pause, 1, .fixed 0 .superseded⟩] } : State).parked, p.outcome ≠ .awaited) ∧
    ∀ p ∈ ({ s with parked := [] } : State).parked, p.link = 0 → p.outcome ≠ .awaited := by
  refine ⟨⟨rfl, rfl, rfl, rfl, rfl, ?_⟩, ⟨?_, ?_⟩, ?_⟩ <;> decide +kernel

theorem witness_WaitingOutcomesAreQueuedInOrder :
    let p : ParkedEntry := ⟨2, .pause, 1, .fixed 4 .superseded⟩
    let s : State := { State.reset with
      parked := [⟨1, .measure 3, 0, .fixed 5 .busy⟩, p], replies := List.replicate 7 ⟨1, 0x01, .busy⟩ }
    (s.Quiet ∧ s.parked = [⟨1, .measure 3, 0, .fixed 5 .busy⟩] ++ p :: [] ∧ s.replies.length < 8 ∧
      ∀ q ∈ [(⟨1, .measure 3, 0, .fixed 5 .busy⟩ : ParkedEntry)] ++ [], q.link ≠ p.link ∧
        ∀ m b, q.outcome = .fixed m b → 4 < m) ∧
    (∀ p ∈ State.reset.parked, p.outcome = .awaited) ∧
    8 ≤ ({ s with replies := List.replicate 8 ⟨1, 0x01, .busy⟩ } : State).replies.length := by
  refine ⟨⟨rfl, rfl, by decide, ?_⟩, by decide, by decide⟩
  simp only [List.append_nil, List.mem_singleton, forall_eq, ParkedOutcome.fixed.injEq]
  exact ⟨by decide, fun m b h => by omega⟩

theorem witness_CommandsWaitForTheirConditions : State.reset.Quiet ∧ State.reset.inbox = [] ∧
    (∃ f rest, (holding .hello []).inbox = f :: rest ∧ f.kind ≠ HostCommand.define.code) ∧
    8 ≤ ({ holding .hello [] with replies := List.replicate 8 ⟨1, 0x01, .busy⟩ } : State).replies.length ∧
    (∃ p ∈ ({ holding .hello [] with parked := [⟨1, .pause, 0, .fixed 0 .superseded⟩] } : State).parked,
      p.outcome ≠ .awaited) ∧
    ({ holding .hello [] with softResetPending := true } : State).softResetPending = true :=
  ⟨rfl, rfl, ⟨_, _, rfl, by decide⟩, by decide, by decide, rfl⟩

theorem witness_TagInUseComesFirst :
    let s : State := { holding .hello [] with parked := [⟨7, .pause, 0, .awaited⟩] }
    s.MayTake .hello ⟨0x01, 7, [], false⟩ [] ∧ ∃ p ∈ s.parked, p.tag = 7 :=
  ⟨⟨rfl, rfl, rfl, by decide, by decide, rfl⟩, by decide⟩

theorem witness_NoProbeAboveThirtyOne :
    (holding .measure [32]).Taking .measure ⟨0x16, 7, [32], false⟩ [] ∧ 31 < (byteAt [32] 0).toNat :=
  ⟨taking rfl rfl rfl (by decide) (by decide) rfl, by decide⟩

theorem witness_ReadingCommandsOnlyReply : (holding .hello []).Taking .hello ⟨0x01, 7, [], false⟩ [] ∧
    (holding .readProbe [31]).Taking .readProbe ⟨0x15, 7, [31], false⟩ [] ∧
    Frame.names ⟨0x15, 7, [31], false⟩ 31 ∧ (holding .readTime []).Taking .readTime ⟨0x23, 7, [], false⟩ [] := by
  refine ⟨?_, ?_, rfl, ?_⟩ <;> exact taking rfl rfl rfl (by decide) (by decide) rfl

/-- Accepted, refused for a field, and refused for want of room: the definition of 1.10 takes 16 slots. -/
theorem witness_DefineTakesItsDepth :
    let s := holding .define definePayload
    let bad : List Byte := [5, 17, 0x11, 0, 128, 0, 10, 0x0B, 0xB8, 0x03, 0xE8, 40, 3, 0, 16, 12, 5]
    (s.Taking .define ⟨0x10, 7, definePayload, false⟩ [] ∧ Frame.names ⟨0x10, 7, definePayload, false⟩ 5) ∧
    ((s.probe 5).state = .free ∧ ({ s with freeCount := 16 } : State).freeCount = 16 ∧
      checkDefinition (defineFields definePayload) =
        .ok ⟨3, .window window, 128, 10, 1, 16, 12, ⟨true, false, true, false⟩⟩) ∧
    ({ s with freeCount := 15 } : State).freeCount < 16 ∧ checkDefinition (defineFields bad) = .error 1 ∧
    (({ s with probes := s.probes.set 5 (armed levelDefn) } : State).probe 5).state ≠ .free := by
  refine ⟨⟨taking rfl rfl rfl (by decide) (by decide) rfl, rfl⟩, ⟨rfl, rfl, ?_⟩, ?_, ?_, ?_⟩ <;> decide +kernel

/-- Probe 4 with a command frame for it. -/
def at4 (p : Probe) (c : HostCommand) (fields : List Byte) : State :=
  { State.reset.setProbe 4 p with inbox := [⟨c.code, 7, 4 :: fields, false⟩] }

theorem taking_at4 (p : Probe) (c : HostCommand) (fields : List Byte) :
    (at4 p c fields).Taking c ⟨c.code, 7, 4 :: fields, false⟩ [] ∧ Frame.names ⟨c.code, 7, 4 :: fields, false⟩ 4 :=
  ⟨taking rfl rfl rfl (show 0 < 8 by decide) rfl rfl, rfl⟩

theorem witness_ArmAndDisarm :
    let d := { armed levelDefn with state := .defined, nextDue := none }
    ((at4 d .arm []).Taking .arm ⟨0x11, 7, [4], false⟩ [] ∧ ((at4 d .arm []).probe 4).state = .defined ∧
      ((at4 d .arm []).probe 4).defn = some levelDefn) ∧
    ((at4 (armed levelDefn) .arm []).probe 4).state ≠ .defined ∧
    ((at4 (armed levelDefn) .disarm []).Taking .disarm ⟨0x12, 7, [4], false⟩ [] ∧
      ((at4 (armed levelDefn) .disarm []).probe 4).state = .armed) ∧ ((at4 d .disarm []).probe 4).state ≠ .armed :=
  ⟨⟨(taking_at4 _ .arm []).1, rfl, rfl⟩, by decide +kernel, ⟨(taking_at4 _ .disarm []).1, rfl⟩, by decide +kernel⟩

theorem witness_DeleteReturnsEverything :
    let q : ParkedEntry := ⟨9, .measure 4, 0, .awaited⟩
    let s : Nat → State := fun n => { at4 (armed levelDefn) .delete [] with
      parked := [q], replies := List.replicate n ⟨1, 0x01, .busy⟩ }
    ((at4 (armed levelDefn) .delete []).Taking .delete ⟨0x13, 7, [4], false⟩ [] ∧
      ((at4 (armed levelDefn) .delete []).probe 4).state ≠ .free ∧
      ((at4 (armed levelDefn) .delete []).probe 4).defn = some levelDefn) ∧
    ((s 6).Taking .delete ⟨0x13, 7, [4], false⟩ [] ∧ (s 6).parked = [] ++ q :: [] ∧ (s 6).replies.length + 2 ≤ 8) ∧
    ((s 7).Taking .delete ⟨0x13, 7, [4], false⟩ [] ∧ (s 7).replies.length + 1 = 8) ∧
    ((holding .delete [4]).probe 4).state = .free := by
  refine ⟨⟨(taking_at4 _ .delete []).1, by decide +kernel, rfl⟩, ⟨?_, rfl, by decide⟩, ⟨?_, by decide⟩, rfl⟩ <;>
    exact taking rfl rfl rfl (by decide) (by decide) rfl

theorem witness_SetLimitsStartsFromUnknown :
    let s := at4 (armed levelDefn) .setLimits [0x0F, 0xFF, 0, 0, 255, 8]
    (s.Taking .setLimits ⟨0x14, 7, [4, 0x0F, 0xFF, 0, 0, 255, 8], false⟩ [] ∧ (s.probe 4).state ≠ .free ∧
      (s.probe 4).defn = some levelDefn ∧ levelDefn.style ≠ .check ∧
      checkWindow .optional 0x0FFF 0 255 8 = .ok (some ⟨4095, 0, 255, 8⟩)) ∧
    checkWindow .optional 0x0FFF 0 255 9 = .error 8 ∧
    checkWindow .optional 0x1000 0 255 8 = .error 6 ∧ ((holding .setLimits [4]).probe 4).state = .free ∧
    ({ levelDefn with style := .check } : Definition).style = .check := by
  refine ⟨⟨(taking_at4 _ .setLimits _).1, ?_, rfl, ?_⟩, ?_, ?_, rfl, rfl⟩ <;> decide +kernel

theorem witness_MeasureParksAndQueuesAOneShot :
    let s : List ParkedEntry → State := fun parked => { at4 (armed levelDefn) .measure [] with
      parked := parked, dueQueue := [.oneShot ⟨5, 0⟩, .scheduled ⟨4, 2, 1034, false, 0⟩] }
    let parked : Nat → List ParkedEntry := fun n => (List.range n).map fun k => ⟨1, .pause, k, .awaited⟩
    ((s (parked 3)).Taking .measure ⟨0x16, 7, [4], false⟩ [] ∧ ((s (parked 3)).probe 4).state ≠ .free ∧
      (∀ q ∈ (s (parked 3)).parked, q.command ≠ .measure 4) ∧ (s (parked 3)).parked.length < 4 ∧
      (s (parked 3)).dueQueue = [.oneShot ⟨5, 0⟩] ++ [.scheduled ⟨4, 2, 1034, false, 0⟩]) ∧
    ((s (parked 4)).Taking .measure ⟨0x16, 7, [4], false⟩ [] ∧ 4 ≤ (s (parked 4)).parked.length ∧
      ∀ q ∈ (s (parked 4)).parked, q.command ≠ .measure 4) ∧
    (∃ q ∈ (s [⟨9, .measure 4, 0, .awaited⟩]).parked, q.command = .measure 4) ∧
    ((holding .measure [4]).probe 4).state = .free := by
  refine ⟨⟨?_, by decide +kernel, by decide +kernel, by decide, rfl⟩, ⟨?_, by decide, by decide +kernel⟩, by decide, rfl⟩ <;>
    exact taking rfl rfl rfl (by decide) (by decide) rfl

theorem witness_RunAlignsEveryArmedProbe :
    let q : ParkedEntry := ⟨9, .pause, 0, .awaited⟩
    let s : Nat → State := fun n => { inFlight (armed levelDefn) .level with
      scheduler := .draining, inbox := [⟨0x20, 7, [], false⟩], parked := [q]
      replies := List.replicate n ⟨1, 0x01, .busy⟩ }
    ((holding .run []).Taking .run ⟨0x20, 7, [], false⟩ [] ∧ (holding .run []).scheduler = .stopped) ∧
    ({ holding .run [] with scheduler := .running } : State).scheduler = .running ∧
    ((s 6).Taking .run ⟨0x20, 7, [], false⟩ [] ∧ (s 6).scheduler = .draining ∧ (s 6).parked = [] ++ q :: [] ∧
      (s 6).replies.length + 2 ≤ 8) ∧
    ((s 7).Taking .run ⟨0x20, 7, [], false⟩ [] ∧ (s 7).replies.length + 1 = 8) ∧
    ((draining (holding .run [])).Taking .run ⟨0x20, 7, [], false⟩ [] ∧
      (draining (holding .run [])).scheduler = .draining ∧ (draining (holding .run [])).LinksDistinct) := by
  refine ⟨⟨?_, rfl⟩, rfl, ⟨?_, rfl, rfl, by decide⟩, ⟨?_, by decide⟩, ?_, rfl, draining_links _⟩ <;>
    exact taking rfl rfl rfl (by decide) (by decide) rfl

theorem witness_PauseStopsOrDrains :
    let s : SchedulerState → Nat → State := fun st n => { inFlight (armed levelDefn) .level with
      scheduler := st, inbox := [⟨0x21, 7, [], false⟩]
      parked := (List.range n).map fun k => ⟨1, .measure 3, k, .awaited⟩ }
    ((holding .pause []).Taking .pause ⟨0x21, 7, [], false⟩ [] ∧ (holding .pause []).scheduler = .stopped) ∧
    (¬ ∃ e op channel, ({ holding .pause [] with scheduler := .running } : State).engine =
      .busy ⟨.scheduled e, op, channel⟩) ∧
    ((s .running 3).Taking .pause ⟨0x21, 7, [], false⟩ [] ∧ (s .running 3).parked.length < 4 ∧
      ∃ e op channel, (s .running 3).engine = .busy ⟨.scheduled e, op, channel⟩) ∧
    ((s .running 4).Taking .pause ⟨0x21, 7, [], false⟩ [] ∧ 4 ≤ (s .running 4).parked.length) ∧
    ((s .draining 3).Taking .pause ⟨0x21, 7, [], false⟩ [] ∧ (s .draining 3).scheduler = .draining) ∧
    ((s .draining 4).Taking .pause ⟨0x21, 7, [], false⟩ [] ∧ 4 ≤ (s .draining 4).parked.length) := by
  refine ⟨⟨?_, rfl⟩, ?_, ⟨?_, by decide, _, _, _, rfl⟩, ⟨?_, by decide⟩, ⟨?_, rfl⟩, ?_, by decide⟩
  rotate_left
  · rintro ⟨e, op, c, h⟩; cases h
  all_goals exact taking rfl rfl rfl (by decide) (by decide) rfl

theorem witness_SetTimeLoadsInStoppedAlone :
    ((holding .setTime [255, 255, 255, 255]).Taking .setTime ⟨0x22, 7, [255, 255, 255, 255], false⟩ [] ∧
      (holding .setTime [255, 255, 255, 255]).scheduler = .stopped) ∧
    ({ holding .setTime [0, 0, 0, 0] with scheduler := .running } : State).scheduler ≠ .stopped :=
  ⟨⟨taking rfl rfl rfl (by decide) (by decide) rfl, rfl⟩, by decide⟩

theorem witness_ReadHistoryReturnsAndDrains :
    ((at4 (armed levelDefn) .readHistory [63, 6, 1]).Taking .readHistory ⟨0x30, 7, [4, 63, 6, 1], false⟩ [] ∧
      ((at4 (armed levelDefn) .readHistory [63, 6, 1]).probe 4).state ≠ .free ∧
      ((at4 (armed levelDefn) .readHistory [63, 6, 1]).probe 4).defn = some levelDefn) ∧
    ((at4 (armed levelDefn) .readHistory [0, 1, 0]).Taking .readHistory ⟨0x30, 7, [4, 0, 1, 0], false⟩ [] ∧
      (at4 (armed levelDefn) .readHistory [64, 7, 2]).Taking .readHistory ⟨0x30, 7, [4, 64, 7, 2], false⟩ []) ∧
    (63 < (64 : Byte).toNat ∧ (63 : Byte).toNat ≤ 63 ∧ 6 < (7 : Byte).toNat ∧ 1 < (2 : Byte).toNat) ∧
    ((holding .readHistory [4, 0, 1, 0]).probe 4).state = .free :=
  ⟨⟨(taking_at4 _ .readHistory _).1, by decide +kernel, rfl⟩,
    ⟨(taking_at4 _ .readHistory _).1, (taking_at4 _ .readHistory _).1⟩, by decide, rfl⟩

theorem witness_AckRemovesTheListedNotices :
    let s : State := { holding .ack [0, 1, 0, 1] with
      notices := [notice 0 (.condition .quiesceOn), notice 1 (.condition .quiesceOff)] }
    s.Taking .ack ⟨0x40, 7, [0, 1, 0, 1], false⟩ [] ∧
    ([0, 1, 0, 1] : List Byte) = ([1, 1] : List Half).flatMap bytes16 ∧ (s.notices.map Notice.seq).Nodup :=
  ⟨taking rfl rfl rfl (by decide) (by decide) rfl, by decide +kernel, by decide⟩

theorem witness_ConfigurationCommands :
    ((holding .hold [15]).Taking .hold ⟨0x41, 7, [15], false⟩ [] ∧ (15 : Byte).toNat < 16 ∧ 16 ≤ (16 : Byte).toNat) ∧
    (holding .checkConfig [0]).Taking .checkConfig ⟨0x51, 7, [0], false⟩ [] ∧
    ((holding .linkConfig [8]).Taking .linkConfig ⟨0x50, 7, [8], false⟩ [] ∧ 8 ≤ (8 : Byte).toNat ∧
      (1 ≤ (7 : Byte).toNat ∧ (7 : Byte).toNat ≤ 7)) := by
  refine ⟨⟨?_, by decide⟩, ?_, ?_, by decide⟩ <;> exact taking rfl rfl rfl (by decide) (by decide) rfl

theorem witness_CountersAndSoftReset :
    ((holding .readCounters [1]).Taking .readCounters ⟨0x52, 7, [1], false⟩ [] ∧ 1 < (2 : Byte).toNat) ∧
    (holding .softReset []).Taking .softReset ⟨0x5F, 7, [], false⟩ [] := by
  refine ⟨⟨?_, by decide⟩, ?_⟩ <;> exact taking rfl rfl rfl (by decide) (by decide) rfl

/-- A lawful state after some events: probe 4 ARMED, settling and due, a MEASURE parked for it, two notices, a TAKE
waiting. -/
def sample : State :=
  { running { armed levelDefn with confirmed := .inside, candidate := some ⟨.above, 2⟩ } with
    freeCount := 508
    dueQueue := [.oneShot ⟨4, 0⟩, .scheduled ⟨4, 2, 1034, false, 0⟩]
    parked := [⟨9, .measure 4, 0, .awaited⟩]
    nextLink := 1
    notices := [⟨0, .condition .quiesceOn, 0, 0, .sent 1000, 3⟩, notice 1 (.crossing 4 2 .unknown .inside none false 1)]
    pending := [.take] }

theorem sample_probe (i : Fin 32) : sample.probe i = Probe.cleared 0 ∨
    sample.probe i = { armed levelDefn with confirmed := .inside, candidate := some ⟨.above, 2⟩ } := by
  revert i; decide +kernel

theorem witness_StepKeepsThePoolBalanced : sample.PoolBalanced ∧ ∃ t, step sample = .next t := by
  refine ⟨?_, _, rfl⟩; unfold State.PoolBalanced; decide +kernel

theorem witness_StepKeepsTheCapacities : sample.WithinCapacity ∧ ∃ t, step sample = .next t := by
  refine ⟨?_, _, rfl⟩; unfold State.WithinCapacity; decide +kernel

theorem witness_StepKeepsTheScheduleLaw : sample.ScheduleLawful ∧ ∃ t, step sample = .next t := by
  refine ⟨⟨by decide +kernel, by decide +kernel, fun e he => ?_, by decide +kernel, fun e op c h => ?_, by decide +kernel,
    by simp [sample, State.MayPrecede]⟩, _, rfl⟩
  · obtain rfl : e = ⟨4, 2, 1034, false, 0⟩ := by simpa [sample] using he
    decide +kernel
  · cases h

theorem witness_StepKeepsTheLinkLaw : sample.LinksLawful ∧ ∃ t, step sample = .next t := by
  refine ⟨⟨by decide, by decide, by decide +kernel, by decide, fun e he => ?_, by decide +kernel, fun e op c h => ?_⟩,
    _, rfl⟩
  · obtain rfl : e = ⟨4, 0⟩ := by simpa [sample] using he
    decide +kernel
  · cases h

theorem witness_StepKeepsTheNoticeLaw : sample.NoticesLawful ∧ ∃ t, step sample = .next t := by
  refine ⟨⟨by decide, by decide, List.pairwise_pair.2 fun h => ?_⟩, _, rfl⟩
  exact absurd h (by decide)

theorem witness_StepKeepsTheRetryLaw : sample.RetriesLawful ∧ ∃ t, step sample = .next t := by
  refine ⟨?_, _, rfl⟩; unfold State.RetriesLawful; decide

theorem witness_StepKeepsTheVerdictLaw : sample.VerdictsLawful ∧ ∃ t, step sample = .next t := by
  refine ⟨fun i => ?_, _, rfl⟩
  rcases sample_probe i with h | h <;> rw [h]
  · simp [Probe.VerdictLawful, Probe.cleared]
  · refine ⟨fun d hd => ?_, ?_, fun n hn => ?_, fun c hc => ⟨levelDefn, window, rfl, rfl, ?_⟩⟩
    · cases hd; decide
    · simp [armed, Probe.cleared, levelDefn, Style.confirmRuns?]
    · cases hn
    · cases hc; decide

theorem witness_AlertFollowsTheUnheldNotices : State.reset.Quiet ∧
    (∃ t, exec .noticeTransmissionStart State.reset = .next t) ∧
    (∃ t, exec .replyTransmissionStart State.reset = .next t) ∧ ∃ t, exec .noticeTimeout State.reset = .next t :=
  ⟨rfl, ⟨_, rfl⟩, ⟨_, rfl⟩, _, rfl⟩

end Sys2Proof.Tests
end

section
/-! PROOFS. The checks that come before a command's effect: the probe id (R1), and the fields of a definition in the order of
their field numbers (R6 to R11). -/

namespace Sys2Proof.Machine

/-! ### The probe id (R1) -/

/-- A command whose first field is a probe id is carried out on the probe that the field names, whatever the command does. -/
theorem exec_serves_onProbe {c : HostCommand}
    (hc : c ∈ [HostCommand.define, .arm, .disarm, .delete, .setLimits, .readProbe, .measure, .readHistory]) :
    ∃ carryOut : Frame → Fin 32 → State → State, ∀ s : State,
      exec c.instr s = .next (s.serve c fun f => State.onProbe f (carryOut f)) := by
  simp only [List.mem_cons, List.not_mem_nil, or_false] at hc
  rcases hc with rfl | rfl | rfl | rfl | rfl | rfl | rfl | rfl <;> exact ⟨_, fun _ => rfl⟩

/-- Settles O38: every such command passes through `State.onProbe`, which refuses the id before the command's own checks. -/
theorem noProbeAboveThirtyOne : Obligations.NoProbeAboveThirtyOne := by
  intro s c f rest h hc hid
  obtain ⟨carryOut, hexec⟩ := exec_serves_onProbe hc
  rw [hexec, State.serve_taking h, State.onProbe_none hid, ← h.kind]
  rfl

/-! ### Checks that examine numbered fields in order -/

/-- The check `r` examines the fields `lo` to `hi - 1` in order under the conditions `ok`: what it accepts passes them all and
is sound, and what it refuses it refuses for the first field that does not pass. -/
def Examines {α : Type} (ok : Nat → Prop) (lo hi : Nat) (sound : α → Prop) : Except Byte α → Prop
  | .error k => (lo ≤ k.toNat ∧ k.toNat < hi) ∧ ¬ ok k.toNat ∧ ∀ j, lo ≤ j → j < k.toNat → ok j
  | .ok a => (∀ j, lo ≤ j → j < hi → ok j) ∧ sound a

namespace Examines

variable {α β : Type} {ok : Nat → Prop} {lo mid hi : Nat} {sound : α → Prop} {sound' : β → Prop}

/-- With no field left to examine a sound value is accepted. -/
theorem accept {a : α} (h : sound a) : Examines ok hi hi sound (.ok a) :=
  ⟨fun _ h1 h2 => absurd h2 (by omega), h⟩

/-- The first field to examine fails and is named. -/
theorem fail {n : Byte} (hn : n.toNat = lo) (hlo : lo < hi) (h : ¬ ok lo) : Examines ok lo hi sound (.error n) := by
  subst hn
  exact ⟨⟨le_rfl, hlo⟩, h, fun _ h1 h2 => absurd h2 (by omega)⟩

/-- After the fields before `mid` have passed, the later fields decide. -/
theorem after {rest : Except Byte α} (hlo : lo ≤ mid) (hpass : ∀ j, lo ≤ j → j < mid → ok j)
    (hrest : Examines ok mid hi sound rest) : Examines ok lo hi sound rest := by
  have extend : ∀ j, lo ≤ j → (mid ≤ j → ok j) → ok j := fun j hj later =>
    (Nat.lt_or_ge j mid).elim (hpass j hj) later
  cases rest with
  | error k =>
    obtain ⟨⟨h1, h2⟩, hfail, hbefore⟩ := hrest
    exact ⟨⟨by omega, h2⟩, hfail, fun j hj hlt => extend j hj fun h' => hbefore j h' hlt⟩
  | ok a => exact ⟨fun j hj hlt => extend j hj fun h' => hrest.1 j h' hlt, hrest.2⟩

/-- After one field has passed, the later fields decide. -/
theorem pass {rest : Except Byte α} (h : ok lo) (hrest : Examines ok (lo + 1) hi sound rest) :
    Examines ok lo hi sound rest :=
  after (Nat.le_succ lo) (fun _ hj hlt => Nat.le_antisymm (Nat.le_of_lt_succ hlt) hj ▸ h) hrest

/-- One field: it is refused where its condition fails, and otherwise the later fields decide. -/
theorem field {c : Prop} [Decidable c] {n : Byte} {rest : Except Byte α} (hn : n.toNat = lo) (hlo : lo < hi)
    (hc : c ↔ ¬ ok lo) (hrest : ok lo → Examines ok (lo + 1) hi sound rest) :
    Examines ok lo hi sound (if c then .error n else rest) := by
  split
  case isTrue h => exact fail hn hlo (hc.1 h)
  case isFalse h =>
    have hok : ok lo := not_not.1 fun hnot => h (hc.2 hnot)
    exact pass hok (hrest hok)

/-- The refusal of an earlier check is the refusal of the whole. -/
theorem refuse {r : Except Byte β} {k : Byte} (h : Examines ok lo mid sound' r) (hr : r = .error k) (hhi : mid ≤ hi) :
    Examines ok lo hi sound (.error k) := by
  subst hr
  obtain ⟨⟨h1, h2⟩, hfirst⟩ := h
  exact ⟨⟨h1, by omega⟩, hfirst⟩

/-- After an earlier check has accepted, the later fields decide. -/
theorem andThen {r : Except Byte β} {b : β} {rest : Except Byte α} (h : Examines ok lo mid sound' r) (hr : r = .ok b)
    (hlo : lo ≤ mid) (hrest : sound' b → Examines ok mid hi sound rest) : Examines ok lo hi sound rest := by
  subst hr
  exact after hlo h.1 (hrest h.2)

/-- The conditions may be stated otherwise. -/
theorem congr {ok' : Nat → Prop} {r : Except Byte α} (h : Examines ok lo hi sound r)
    (hok : ∀ j, lo ≤ j → j < hi → (ok j ↔ ok' j)) : Examines ok' lo hi sound r := by
  cases r with
  | error k =>
    obtain ⟨⟨h1, h2⟩, hfail, hbefore⟩ := h
    exact ⟨⟨h1, h2⟩, (hok _ h1 h2).not.1 hfail, fun j hj hlt => (hok j hj (by omega)).1 (hbefore j hj hlt)⟩
  | ok a => exact ⟨fun j hj hlt => (hok j hj hlt).1 (h.1 j hj hlt), h.2⟩

/-- A check of all the fields accepts exactly when every field passes. -/
theorem exists_ok_iff {r : Except Byte α} (h : Examines ok lo hi sound r) (hout : ∀ j, j < lo ∨ hi ≤ j → ok j) :
    (∃ a, r = .ok a) ↔ ∀ j, ok j := by
  cases r with
  | error k => exact iff_of_false (by simp) fun hall => h.2.1 (hall _)
  | ok a =>
    refine iff_of_true ⟨a, rfl⟩ fun j => ?_
    by_cases hj : j < lo ∨ hi ≤ j
    · exact hout j hj
    · exact h.1 j (by omega) (by omega)

/-- A check of all the fields names exactly the first that does not pass. -/
theorem error_iff {r : Except Byte α} (h : Examines ok lo hi sound r) (hout : ∀ j, j < lo ∨ hi ≤ j → ok j) (k : Byte) :
    r = .error k ↔ ¬ ok k.toNat ∧ ∀ j, j < k.toNat → ok j := by
  cases r with
  | ok a =>
    have hall := (exists_ok_iff h hout).1 ⟨a, rfl⟩
    exact iff_of_false (by simp) fun hk => hk.1 (hall _)
  | error n =>
    obtain ⟨-, hfail, hbefore⟩ := h
    have hfirst : ∀ j, j < n.toNat → ok j := fun j hj =>
      (Nat.lt_or_ge j lo).elim (fun h' => hout j (.inl h')) fun h' => hbefore j h' hj
    refine ⟨fun e => ?_, fun ⟨hk, hkfirst⟩ => ?_⟩
    · cases e; exact ⟨hfail, hfirst⟩
    · have h1 : ¬ n.toNat < k.toNat := fun hlt => hfail (hkfirst _ hlt)
      have h2 : ¬ k.toNat < n.toNat := fun hlt => hk (hfirst _ hlt)
      rw [BitVec.eq_of_toNat_eq (show n.toNat = k.toNat by omega)]

theorem sound_of_ok {r : Except Byte α} {a : α} (h : Examines ok lo hi sound r) (hr : r = .ok a) : sound a := by
  subst hr; exact h.2

end Examines

/-! ### The window (R9) -/

/-- A window as checked for a style: the one carried, well-formed, present where the style needs it and absent where the style
bars it. -/
structure SoundWindow (need : WindowNeed) (high low : Half) (hysteresis settle : Byte) (w : Option Window) : Prop where
  carries : CarriesWindow w high low hysteresis settle
  wellFormed : w.all Window.wellFormed = true
  present : need = .required → ∃ v, w = some v
  absent : need = .barred → w = none

/-- The window made of carried fields that pass. -/
theorem soundWindow_some {need : WindowNeed} {high low : Half} {hysteresis settle : Byte} (hp : high ≠ 0xFFFF)
    (hb : need ≠ .barred) (hhigh : high.toNat ≤ 4095) (hlow : low.toNat ≤ 4095) (hle : low.toNat ≤ high.toNat)
    (hhyst : hysteresis.toNat ≤ high.toNat - low.toNat) (hset : 1 ≤ settle.toNat ∧ settle.toNat ≤ 8) :
    SoundWindow need high low hysteresis settle
      (some ⟨high.setWidth 12, low.setWidth 12, hysteresis, settle.toNat⟩) := by
  have eh : (high.setWidth 12).toNat = high.toNat := by rw [BitVec.toNat_setWidth]; omega
  have el : (low.setWidth 12).toNat = low.toNat := by rw [BitVec.toNat_setWidth]; omega
  refine ⟨.inr ⟨hp, _, rfl, eh, el, rfl, rfl⟩, ?_, fun _ => ⟨_, rfl⟩, fun h => absurd h hb⟩
  simp only [Option.all_some, Window.wellFormed, eh, el, Bool.and_eq_true, decide_eq_true_eq]
  exact ⟨⟨⟨hle, hhyst⟩, hset.1⟩, hset.2⟩

/-- Fields 6, 7 and 8 are examined in order. -/
theorem checkWindow_examines (need : WindowNeed) (high low : Half) (hysteresis settle : Byte) :
    Examines (WindowFieldOk (need = .required) (need = .barred) high low hysteresis settle) 6 9
      (SoundWindow need high low hysteresis settle) (checkWindow need high low hysteresis settle) := by
  by_cases ha : high = 0xFFFF
  · rw [checkWindow, if_pos (show high = absentWindow from ha)]
    refine .field rfl (by omega) (by simp [WindowFieldOk, ha]) fun h6 => ?_
    have h7 : WindowFieldOk (need = .required) (need = .barred) high low hysteresis settle 7 := fun hp => absurd ha hp
    have h8 : WindowFieldOk (need = .required) (need = .barred) high low hysteresis settle 8 := fun hp => absurd ha hp
    exact .pass h7 (.pass h8 (.accept ⟨.inl ⟨ha, rfl⟩, rfl, fun hneed => absurd ha (h6.1 hneed), fun _ => rfl⟩))
  · rw [checkWindow, if_neg (show ¬ high = absentWindow from ha), ← ite_or]
    refine .field rfl (by omega) ?_ fun h6 => .field rfl (by omega) ?_ fun h7 => .field rfl (by omega) ?_ fun h8 =>
      .accept ?_
    · constructor
      · rintro (hb | hlim) ⟨-, hbarred, hlimits⟩
        · exact ha (hbarred hb)
        · have := hlimits ha; omega
      · intro hfails
        by_contra hnone
        obtain ⟨hb, hlim⟩ := not_or.1 hnone
        exact hfails ⟨fun _ => ha, fun hb' => absurd hb' hb, fun _ => by omega⟩
    · simp only [WindowFieldOk, ne_eq, ha, not_false_eq_true, true_implies]; omega
    · simp only [WindowFieldOk, ne_eq, ha, not_false_eq_true, true_implies]; omega
    · obtain ⟨-, hb, hlim⟩ := h6
      obtain ⟨hhigh, hlow, hle⟩ := hlim ha
      exact soundWindow_some ha (fun h => ha (hb h)) hhigh hlow hle (h7 ha) (h8 ha)

/-! ### The fields of a definition (R6 step 3, R7 to R11) -/

/-- The condition of field k of a definition (R7 to R10), in the words of `Obligations.DefinitionFieldsAreCheckedInOrder`. -/
def DefineFieldOk (f : DefineFields) : Nat → Prop
  | 1 => f.channel.toNat ≤ 16
  | 2 => f.style.toNat ≤ 3 ∧ (f.style.toNat = 3 ↔ f.channel.toNat = 16)
  | 3 => 1 ≤ f.period.toNat
  | 4 => f.phase.toNat < f.period.toNat
  | 5 => f.cls.toNat ≤ 3
  | 6 => (f.style.toNat = 1 ∨ f.style.toNat = 2 → f.high ≠ 0xFFFF) ∧ (f.style.toNat = 3 → ¬ f.high ≠ 0xFFFF) ∧
      (f.high ≠ 0xFFFF → f.high.toNat ≤ 4095 ∧ f.low.toNat ≤ 4095 ∧ f.low.toNat ≤ f.high.toNat)
  | 7 => f.high ≠ 0xFFFF → f.hysteresis.toNat ≤ f.high.toNat - f.low.toNat
  | 8 => f.high ≠ 0xFFFF → 1 ≤ f.settle.toNat ∧ f.settle.toNat ≤ 8
  | 9 => f.style.toNat = 2 → 1 ≤ f.confirmRuns.toNat ∧ f.confirmRuns.toNat ≤ 16
  | 10 => f.depth.toNat ≤ 64
  | 11 => f.watermark.toNat ≤ f.depth.toNat
  | 12 => f.notify.toNat < 16
  | _ => True

/-- There are twelve fields. -/
theorem defineFieldOk_outside (f : DefineFields) : ∀ j, j < 1 ∨ 13 ≤ j → DefineFieldOk f j
  | 0, _ => trivial
  | n + 13, _ => trivial
  | 1, h | 2, h | 3, h | 4, h | 5, h | 6, h | 7, h | 8, h | 9, h | 10, h | 11, h | 12, h => absurd h (by decide)

/-- Fields 1 and 2 are examined in order. -/
theorem checkChannel_examines (f : DefineFields) :
    Examines (DefineFieldOk f) 1 3
      (fun channel => channel.val = f.channel.toNat ∧ f.style.toNat ≤ 3 ∧ (f.style.toNat = 3 ↔ f.channel.toNat = 16))
      (checkChannel f.channel f.style) := by
  by_cases h : f.channel.toNat < 17
  · rw [checkChannel, dif_pos h]
    have h1 : DefineFieldOk f 1 := Nat.le_of_lt_succ h
    refine .pass h1 (.field rfl (by omega) ?_ fun h2 => .accept ⟨rfl, h2⟩)
    simp only [DefineFieldOk, ne_eq, eq_iff_iff]; omega
  · rw [checkChannel, dif_neg h]
    exact .fail rfl (by omega) fun h1 => h (Nat.lt_succ_of_le h1)

/-- The window condition of a style code is that of R9. -/
theorem windowNeed_iff {style : BitVec 4} (h : style.toNat ≤ 3) :
    (windowNeed style = .required ↔ style.toNat = 1 ∨ style.toNat = 2) ∧ (windowNeed style = .barred ↔ style.toNat = 3) := by
  unfold windowNeed
  split
  case isTrue h0 => simp [h0]
  case isFalse h0 =>
    split
    case isTrue h3 => simp [h3]
    case isFalse h3 => simp only [true_iff, reduceCtorEq, false_iff]; omega

/-- A window's fields in a definition are under the condition that its style sets. -/
theorem windowFieldOk_iff {f : DefineFields} (h : f.style.toNat ≤ 3) {j : Nat} (hj : 6 ≤ j) (hlt : j < 9) :
    WindowFieldOk (windowNeed f.style = .required) (windowNeed f.style = .barred) f.high f.low f.hysteresis f.settle j ↔
      DefineFieldOk f j := by
  obtain ⟨hreq, hbar⟩ := windowNeed_iff h
  obtain rfl | rfl | rfl : j = 6 ∨ j = 7 ∨ j = 8 := by omega
  · simp only [WindowFieldOk, DefineFieldOk, hreq, hbar, not_not]
  · rfl
  · rfl

/-- A style as made of carried fields that pass: its code and window, and confirm runs of 1 to 16 for ADAPTIVE alone (R10). -/
structure SoundStyle (f : DefineFields) (window : Option Window) (style : Style) : Prop where
  code : style.code = f.style.toNat
  window : style.window? = window
  confirmRuns : style.confirmRuns? = if f.style.toNat = 2 then some f.confirmRuns.toNat else none
  confirmFits : (style.confirmRuns?.all fun n => 1 ≤ n && n ≤ 16) = true

/-- Field 9 is examined for ADAPTIVE alone. -/
theorem makeStyle_examines {f : DefineFields} {window : Option Window} (h : f.style.toNat ≤ 3)
    (hw : SoundWindow (windowNeed f.style) f.high f.low f.hysteresis f.settle window) :
    Examines (DefineFieldOk f) 9 10 (SoundStyle f window) (makeStyle f.style window f.confirmRuns) := by
  obtain ⟨hreq, hbar⟩ := windowNeed_iff h
  have unexamined : f.style.toNat ≠ 2 → DefineFieldOk f 9 := fun hne h2 => absurd h2 hne
  obtain h0 | h1 | h2 | h3 : f.style.toNat = 0 ∨ f.style.toNat = 1 ∨ f.style.toNat = 2 ∨ f.style.toNat = 3 := by omega
  · simp only [makeStyle, h0]
    exact .pass (unexamined (by omega)) (.accept ⟨h0.symm, rfl, by simp [h0, Style.confirmRuns?], rfl⟩)
  · obtain ⟨w, rfl⟩ := hw.present (hreq.2 (.inl h1))
    simp only [makeStyle, h1]
    exact .pass (unexamined (by omega)) (.accept ⟨h1.symm, rfl, by simp [h1, Style.confirmRuns?], rfl⟩)
  · obtain ⟨w, rfl⟩ := hw.present (hreq.2 (.inr h2))
    simp only [makeStyle, h2]
    refine .field rfl (by omega) (by simp only [DefineFieldOk, h2, true_implies]; omega) fun h9 => .accept ?_
    exact ⟨h2.symm, rfl, by simp [h2, Style.confirmRuns?], by simpa [Style.confirmRuns?] using h9 h2⟩
  · obtain rfl := hw.absent (hbar.2 h3)
    simp only [makeStyle, h3]
    exact .pass (unexamined (by omega)) (.accept ⟨h3.symm, rfl, by simp [h3, Style.confirmRuns?], rfl⟩)

/-- A notify byte is taken exactly when its bits 4 to 7 are zero (R10). -/
theorem notifySet_ofByte (b : Byte) : NotifySet.ofByte b =
    if b.toNat < 16 then some ⟨b.getLsbD 0, b.getLsbD 1, b.getLsbD 2, b.getLsbD 3⟩ else none := by
  have : b.extractLsb' 4 4 = 0 ↔ b.toNat < 16 := by
    rw [← BitVec.toNat_inj, BitVec.extractLsb'_toNat, Nat.shiftRight_eq_div_pow]
    simp only [BitVec.ofNat_eq_ofNat, BitVec.toNat_ofNat]; omega
  simp only [NotifySet.ofByte, this]

/-- A definition that holds the values carried (R11). -/
structure CarriesFields (f : DefineFields) (d : Definition) : Prop where
  wellFormed : d.wellFormed = true
  channel : d.channel.val = f.channel.toNat
  code : d.style.code = f.style.toNat
  period : d.period = f.period
  phase : d.phase = f.phase
  cls : d.cls.val = f.cls.toNat
  window : CarriesWindow d.style.window? f.high f.low f.hysteresis f.settle
  confirmRuns : d.style.confirmRuns? = if f.style.toNat = 2 then some f.confirmRuns.toNat else none
  depth : d.depth = f.depth.toNat
  watermark : d.watermark = f.watermark.toNat
  notify : d.notify = ⟨f.notify.getLsbD 0, f.notify.getLsbD 1, f.notify.getLsbD 2, f.notify.getLsbD 3⟩

/-- CHECK is the style of code 3. -/
theorem style_eq_check_iff (style : Style) : style = .check ↔ style.code = 3 := by
  cases style <;> simp [Style.code]

/-- The definition made of a channel, a window and a style as checked, and of other fields that pass, holds the values
carried. -/
theorem carriesFields_of_sound {f : DefineFields} {channel : Fin 17} {window : Option Window} {style : Style}
    (hval : channel.val = f.channel.toNat) (hagree : f.style.toNat = 3 ↔ f.channel.toNat = 16)
    (hperiod : 1 ≤ f.period.toNat) (hphase : f.phase.toNat < f.period.toNat) (hcls : f.cls.toNat ≤ 3)
    (hw : SoundWindow (windowNeed f.style) f.high f.low f.hysteresis f.settle window) (hs : SoundStyle f window style)
    (hdepth : f.depth.toNat ≤ 64) (hwatermark : f.watermark.toNat ≤ f.depth.toNat) :
    CarriesFields f ⟨channel, style, f.period, f.phase, Fin.ofNat 4 f.cls.toNat, f.depth.toNat, f.watermark.toNat,
      ⟨f.notify.getLsbD 0, f.notify.getLsbD 1, f.notify.getLsbD 2, f.notify.getLsbD 3⟩⟩ where
  wellFormed := by
    have hcheck : ((style == .check) == (channel.val == 16)) = true := by
      rw [beq_iff_eq, Bool.eq_iff_iff, beq_iff_eq, beq_iff_eq, style_eq_check_iff, hs.code, hval, hagree]
    have hwindow : style.window?.all Window.wellFormed = true := hs.window ▸ hw.wellFormed
    simp only [Definition.wellFormed, Definition.channelAgrees, Definition.phaseFits, Definition.windowFits,
      Definition.confirmFits, Definition.ringFits, hcheck, hwindow, hs.confirmFits, hperiod, hphase, hdepth, hwatermark,
      decide_true, Bool.and_true]
  channel := hval
  code := hs.code
  period := rfl
  phase := rfl
  cls := Nat.mod_eq_of_lt (Nat.lt_succ_of_le hcls)
  window := hs.window ▸ hw.carries
  confirmRuns := hs.confirmRuns
  depth := rfl
  watermark := rfl
  notify := rfl

/-- The definition fields are examined in the order of their numbers, and what is accepted holds the values carried. -/
theorem checkDefinition_examines (f : DefineFields) :
    Examines (DefineFieldOk f) 1 13 (CarriesFields f) (checkDefinition f) := by
  have hchannel := checkChannel_examines f
  unfold checkDefinition
  split
  case h_1 k hr => exact hchannel.refuse hr (by omega)
  case h_2 channel hr =>
    refine hchannel.andThen hr (by omega) fun ⟨hval, hstyle, hagree⟩ => ?_
    refine .field rfl (by omega) Nat.not_le.symm fun h3 => ?_
    refine .field rfl (by omega) Nat.not_lt.symm fun h4 => ?_
    refine .field rfl (by omega) Nat.not_le.symm fun h5 => ?_
    have hwindow := (checkWindow_examines (windowNeed f.style) f.high f.low f.hysteresis f.settle).congr
      fun j hj hlt => windowFieldOk_iff hstyle hj hlt
    split
    case h_1 k hr => exact hwindow.refuse hr (by omega)
    case h_2 window hr =>
      refine hwindow.andThen hr (by omega) fun hw => ?_
      have hmake := makeStyle_examines hstyle hw
      split
      case h_1 k hr => exact hmake.refuse hr (by omega)
      case h_2 style hr =>
        refine hmake.andThen hr (by omega) fun hs => ?_
        refine .field rfl (by omega) Nat.not_le.symm fun h10 => ?_
        refine .field rfl (by omega) Nat.not_le.symm fun h11 => ?_
        rw [notifySet_ofByte]
        by_cases h12 : f.notify.toNat < 16
        · simp only [if_pos h12]
          exact .pass h12 (.accept (carriesFields_of_sound hval hagree h3 h4 h5 hw hs h10 h11))
        · simp only [if_neg h12]
          exact .fail rfl (by omega) h12

/-- Settles O40: `checkDefinition` examines the twelve fields in order, which fixes both what it accepts and the field that it
names. -/
theorem definitionFieldsAreCheckedInOrder : Obligations.DefinitionFieldsAreCheckedInOrder := by
  intro f style present ok
  have hok : ok = DefineFieldOk f := rfl
  rw [hok]
  have h := checkDefinition_examines f
  have hout := defineFieldOk_outside f
  refine ⟨h.exists_ok_iff hout, fun d hd => ?_, h.error_iff hout⟩
  obtain ⟨hwf, hchannel, hcode, hperiod, hphase, hcls, hwindow, hconfirm, hdepth, hwatermark, hnotify⟩ := h.sound_of_ok hd
  exact ⟨hwf, hchannel, hcode, hperiod, hphase, hcls, hwindow, hconfirm, hdepth, hwatermark, hnotify⟩

end Sys2Proof.Machine
end

section
/-! PROOFS. The host's commands of the time base (SET_TIME, READ_TIME), and with READ_TIME the others that only reply (HELLO,
READ_PROBE). -/

namespace Sys2Proof.Machine

/-! ### Commands that only reply (R18, R25, R168) -/

theorem exec_hello (s : State) :
    exec .hello s = .next (s.serve .hello fun f t => t.answer f (.hello t.report)) := rfl

theorem exec_readProbe (s : State) :
    exec .readProbe s =
      .next (s.serve .readProbe fun f => State.onProbe f fun i t => t.answer f (.probe (t.probe i))) := rfl

theorem exec_readTime (s : State) :
    exec .readTime s = .next (s.serve .readTime fun f t => t.answer f (.time t.counter t.scheduler)) := rfl

/-- A frame taken and answered leaves the inbox and adds its reply, and changes nothing else. -/
theorem State.answer_taken (s : State) (f : Frame) (rest : List Frame) (body : ReplyBody) :
    State.answer { s with inbox := rest } f body =
      { s with inbox := rest, replies := s.replies ++ [⟨f.tag, f.kind, body⟩] } := rfl

/-- Settles O39: each command comes to one `State.answer` at its taking, and a frame that leaves the inbox changes nothing of
what the three report. -/
theorem readingCommandsOnlyReply : Obligations.ReadingCommandsOnlyReply := by
  intro s f rest i reply
  refine ⟨fun h => ?hello, fun h hid => ?readProbe, fun h => ?readTime⟩
  case hello =>
    rw [exec_hello, State.serve_taking h, State.answer_taken]
    rfl
  case readProbe =>
    rw [exec_readProbe, State.serve_taking h, State.onProbe_names hid, State.answer_taken]
    rfl
  case readTime =>
    rw [exec_readTime, State.serve_taking h, State.answer_taken]

/-! ### SET_TIME (R24) -/

theorem exec_setTime (s : State) : exec .setTime s = .next (s.serve .setTime State.loadTime) := rfl

/-- In STOPPED the counter takes the value carried, and the reply carries it back. -/
theorem State.loadTime_of_stopped {s : State} (h : s.scheduler = .stopped) (f : Frame) :
    s.loadTime f = State.answer { s with counter := wordAt f.payload 0 } f (.counter (wordAt f.payload 0)) :=
  if_pos h

/-- Out of STOPPED the command is refused with the scheduler state. -/
theorem State.loadTime_of_not_stopped {s : State} (h : s.scheduler ≠ .stopped) (f : Frame) :
    s.loadTime f = s.answer f (.wrongSchedulerState s.scheduler) :=
  if_neg h

/-- Four bytes carry a 32-bit value, most significant byte first (R174). -/
theorem wordAt_four_bytes (b0 b1 b2 b3 : Byte) :
    wordAt [b0, b1, b2, b3] 0 =
      BitVec.ofNat 32 (b0.toNat * 16777216 + b1.toNat * 65536 + b2.toNat * 256 + b3.toNat) := by
  have hbytes : wordAt [b0, b1, b2, b3] 0 = (b0 ++ b1) ++ (b2 ++ b3) := rfl
  have hvalue : ((b0 ++ b1) ++ (b2 ++ b3)).toNat =
      b0.toNat * 16777216 + b1.toNat * 65536 + b2.toNat * 256 + b3.toNat := by
    simp only [toNat_append_eq]
    omega
  rw [hbytes, ← hvalue, BitVec.ofNat_toNat, BitVec.setWidth_eq]

/-- Settles O48: the taking leaves the scheduler state as it is, which alone decides between the load and the refusal. -/
theorem setTimeLoadsInStoppedAlone : Obligations.SetTimeLoadsInStoppedAlone := by
  intro s f rest b0 b1 b2 b3 h hpayload value
  have hkind : f.kind = 0x22 := h.kind
  have hvalue : wordAt f.payload 0 = value := hpayload ▸ wordAt_four_bytes b0 b1 b2 b3
  rw [exec_setTime, State.serve_taking h]
  refine ⟨fun hstopped => ?loaded, fun hother => ?refused⟩
  case loaded =>
    rw [State.loadTime_of_stopped (s := { s with inbox := rest }) hstopped, hvalue, ← hkind]
    rfl
  case refused =>
    rw [State.loadTime_of_not_stopped (s := { s with inbox := rest }) hother, State.answer_taken, hkind]

end Sys2Proof.Machine
end

section
/-! PROOFS. The host's command of the sample history (READ_HISTORY). -/

namespace Sys2Proof.Machine

/-! ### The fields 13, 14 and 15 (R103) -/

theorem checkHistory_skip_out_of_range {skip : Byte} (hskip : 63 < skip.toNat) (count drain : Byte) :
    checkHistory skip count drain = .error 13 :=
  if_pos hskip

theorem checkHistory_count_out_of_range {skip count : Byte} (hskip : skip.toNat ≤ 63)
    (hcount : count.toNat < 1 ∨ 6 < count.toNat) (drain : Byte) : checkHistory skip count drain = .error 14 := by
  rw [checkHistory, if_neg (Nat.not_lt.2 hskip), if_pos hcount]

theorem checkHistory_drain_out_of_range {skip count drain : Byte} (hskip : skip.toNat ≤ 63) (hlo : 1 ≤ count.toNat)
    (hhi : count.toNat ≤ 6) (hdrain : 1 < drain.toNat) : checkHistory skip count drain = .error 15 := by
  rw [checkHistory, if_neg (Nat.not_lt.2 hskip), if_neg (by omega), if_pos hdrain]

theorem checkHistory_of_ranges {skip count drain : Byte} (hskip : skip.toNat ≤ 63) (hlo : 1 ≤ count.toNat)
    (hhi : count.toNat ≤ 6) (hdrain : drain.toNat ≤ 1) :
    checkHistory skip count drain = .ok (skip.toNat, count.toNat, decide (drain = 1)) := by
  rw [checkHistory, if_neg (Nat.not_lt.2 hskip), if_neg (by omega), if_neg (Nat.not_lt.2 hdrain)]

/-! ### READ_HISTORY on a probe (R103 to R105) -/

theorem exec_readHistory (s : State) :
    exec .readHistory s = .next (s.serve .readHistory fun f => State.onProbe f (State.readRing f)) := rfl

/-- A taken READ_HISTORY reads the ring of the probe that it names. -/
theorem exec_readHistory_taking {s : State} {f : Frame} {rest : List Frame} {i : Fin 32}
    (h : s.Taking .readHistory f rest) (hid : f.names i) :
    exec .readHistory s = .next (State.readRing f i { s with inbox := rest }) := by
  rw [exec_readHistory, State.serve_taking h, State.onProbe_names hid]

/-- A FREE probe has no history, whatever the fields are. -/
theorem State.readRing_of_free {s : State} {i : Fin 32} (h : (s.probe i).state = .free) (f : Frame) :
    s.readRing f i = s.answer f (.wrongState .free) := by
  simp only [State.readRing, h]

/-- What READ_HISTORY does once its fields have passed: the records are returned, with the fill and the overwritten count as
they were before a drain. -/
def State.serveHistory (s : State) (f : Frame) (i : Fin 32) (d : Definition) (skip count : Nat) (drain : Bool) : State :=
  let p := s.probe i
  let records := p.window skip count
  (if drain then s.setProbe i (p.drain d skip records.length) else s).answer f
    (.history p.ring.length p.overwritten records)

/-- Without a drain the reply is all that changes. -/
theorem State.serveHistory_kept (s : State) (f : Frame) (i : Fin 32) (d : Definition) (skip count : Nat) :
    s.serveHistory f i d skip count false =
      s.answer f (.history (s.probe i).ring.length (s.probe i).overwritten ((s.probe i).window skip count)) := rfl

/-- With a drain the probe's record changes too. -/
theorem State.serveHistory_drained (s : State) (f : Frame) (i : Fin 32) (d : Definition) (skip count : Nat) :
    s.serveHistory f i d skip count true =
      { s.serveHistory f i d skip count false with
        probes := s.probes.set i ((s.probe i).drain d skip ((s.probe i).window skip count).length) } := rfl

/-- What READ_HISTORY comes to by the outcome of its check: a field that does not pass is named, and the ring is not read. -/
def State.historyOutcome (s : State) (f : Frame) (i : Fin 32) (d : Definition) : Except Byte (Nat × Nat × Bool) → State
  | .error field => s.answer f (.badValue field)
  | .ok (skip, count, drain) => s.serveHistory f i d skip count drain

/-- On a probe with a definition the check of the three fields decides. -/
theorem State.readRing_of_defined {s : State} {f : Frame} {i : Fin 32} {d : Definition} {b skip count drain : Byte}
    (hstate : (s.probe i).state ≠ .free) (hdefn : (s.probe i).defn = some d)
    (hpayload : f.payload = [b, skip, count, drain]) :
    s.readRing f i = s.historyOutcome f i d (checkHistory skip count drain) := by
  have hfields : checkHistory (byteAt f.payload 1) (byteAt f.payload 2) (byteAt f.payload 3) =
      checkHistory skip count drain := by rw [hpayload]; rfl
  cases h : (s.probe i).state with
  | free => exact absurd h hstate
  | defined | armed =>
    simp only [State.readRing, h, hdefn, hfields]
    cases checkHistory skip count drain <;> rfl

/-- A drain cuts the ring behind the records returned, and not at all where there are none (R105). -/
theorem Probe.drain_length (p : Probe) (d : Definition) (skip : Nat) (records : List HistoryRecord) :
    p.drain d skip records.length =
      let kept := if records = [] then p.ring else p.ring.drop (skip + records.length)
      { p with
        ring := kept
        overwritten := 0
        watermarkReached := if kept.length < d.watermark then false else p.watermarkReached } := by
  simp only [Probe.drain, List.length_eq_zero_iff]

/-- Settles O49: the probe's state and then the check of the three fields decide the case; where they pass, the reply is made
from the ring as it stood, and the drain byte alone decides whether the ring is cut. -/
theorem readHistoryReturnsAndDrains : Obligations.ReadHistoryReturnsAndDrains := by
  intro s f rest i d b skip count drain h hid hpayload p n records reply served kept
  let t : State := { s with inbox := rest }
  have hexec : exec .readHistory s = .next (t.readRing f i) := exec_readHistory_taking h hid
  have hreply : ∀ body, t.answer f body = reply body := fun body => by
    have hkind : f.kind = 0x30 := h.kind
    rw [State.answer_taken, hkind]
  refine ⟨fun hfree => ?free, fun hstate hdefn => ?defined⟩
  case free => rw [hexec, State.readRing_of_free (s := t) hfree, hreply]
  case defined =>
    have houtcome : exec .readHistory s = .next (t.historyOutcome f i d (checkHistory skip count drain)) := by
      rw [hexec, State.readRing_of_defined (s := t) hstate hdefn hpayload]
    have refuses : ∀ k, checkHistory skip count drain = .error k →
        exec .readHistory s = .next (reply (.badValue k)) := fun k hcheck => by
      rw [houtcome, hcheck, State.historyOutcome, hreply]
    have serves : ∀ drains, checkHistory skip count drain = .ok (n, count.toNat, drains) →
        exec .readHistory s = .next (t.serveHistory f i d n count.toNat drains) := fun drains hcheck => by
      rw [houtcome, hcheck, State.historyOutcome]
    have hkept : t.serveHistory f i d n count.toNat false = served :=
      (State.serveHistory_kept t f i d n count.toNat).trans (hreply _)
    refine ⟨fun hskip => ?badSkip, fun hskip hcount => ?badCount, fun hskip hlo hhi hdrain => ?badDrain, ?kept, ?drained⟩
    case badSkip => exact refuses 13 (checkHistory_skip_out_of_range hskip count drain)
    case badCount =>
      exact refuses 14 (checkHistory_count_out_of_range hskip (hcount.imp_left fun hzero => by simp [hzero]) drain)
    case badDrain => exact refuses 15 (checkHistory_drain_out_of_range hskip hlo hhi hdrain)
    case kept =>
      rintro hskip hlo hhi rfl
      rw [serves false (checkHistory_of_ranges hskip hlo hhi (by decide)), hkept]
    case drained =>
      rintro hskip hlo hhi rfl
      have hcut := Probe.drain_length p d n records
      rw [serves true (checkHistory_of_ranges hskip hlo hhi (by decide)), State.serveHistory_drained, hkept]
      exact congrArg (fun q => Host.Outcome.next { served with probes := s.probes.set i q }) hcut

end Sys2Proof.Machine
end

section
/-! PROOFS. The start of a notice's transmission (NOTICE_TRANSMISSION_START). -/

namespace Sys2Proof.Machine

/-! ### Eligibility (R131) -/

/-- A notice may be sent exactly when it is QUEUED and of an unheld class. -/
theorem Notice.sendable_iff {held : ClassSet} {n : Notice} :
    n.sendable held = true ↔ n.delivery = .queued ∧ held.has n.content.cls = false := by
  simp [Notice.sendable, Notice.isQueued]

/-- A notice may not be sent exactly when its class is held, should it be QUEUED. -/
theorem Notice.not_sendable_iff {held : ClassSet} {n : Notice} :
    ¬ n.sendable held = true ↔ (n.delivery = .queued → held.has n.content.cls = true) := by
  simp [Notice.sendable_iff]

/-- Creation order decides: the eligible notice is the one that may be sent with none before it that may (R131). -/
theorem State.eligible_eq_some {s : State} {before after : List Notice} {n : Notice}
    (hsplit : s.notices = before ++ n :: after) (hn : n.sendable s.holdSet = true)
    (hbefore : ∀ m ∈ before, ¬ m.sendable s.holdSet = true) : s.eligible = some n := by
  rw [State.eligible, List.find?_eq_some_iff_append]
  exact ⟨hn, before, after, hsplit, fun m hm => by simpa using hbefore m hm⟩

theorem State.eligible_eq_none_iff {s : State} :
    s.eligible = none ↔ ∀ n ∈ s.notices, ¬ n.sendable s.holdSet = true :=
  List.find?_eq_none

/-! ### The start (R132, R133) -/

theorem State.mayStartNotice_iff {s : State} :
    s.mayStartNotice = true ↔ s.mute = false ∧ s.sentCount < 4 ∧ s.transmitter = .free ∧ s.replies = [] := by
  simp [State.mayStartNotice, and_assoc]

/-- The start stamps the first notice that may be sent, in its place among the others, and copies it as it was QUEUED. -/
theorem State.startNotice_of_eligible {s : State} {before after : List Notice} {n : Notice}
    (hsplit : s.notices = before ++ n :: after) (hn : n.sendable s.holdSet = true)
    (hbefore : ∀ m ∈ before, ¬ m.sendable s.holdSet = true) (hmay : s.mayStartNotice = true) :
    s.startNotice = { s with
      notices := before ++ { n with delivery := .sent s.counter } :: after
      transmitter := .sending (.notice n) } := by
  have hstamped := updateFirst_append (fun n : Notice => { n with delivery := .sent s.counter }) after
    (fun m hm => by simpa using hbefore m hm) hn
  simp only [State.startNotice, State.eligible_eq_some hsplit hn hbefore, hmay, if_true, hsplit, hstamped]

/-- Without an eligible notice no start is made. -/
theorem State.startNotice_of_none_eligible {s : State} (h : s.eligible = none) : s.startNotice = s := by
  simp only [State.startNotice, h]

/-- Without one of the conditions of R132 no start is made, whatever notice is eligible. -/
theorem State.startNotice_of_not_may {s : State} (h : ¬ s.mayStartNotice = true) : s.startNotice = s := by
  cases heligible : s.eligible with
  | none => exact State.startNotice_of_none_eligible heligible
  | some n => simp only [State.startNotice, heligible, if_neg h]

theorem exec_noticeTransmissionStart_of_quiet {s : State} (h : s.Quiet) :
    exec .noticeTransmissionStart s = .next s.startNotice :=
  congrArg Host.Outcome.next (State.act_of_quiet h State.startNotice)

/-- Settles O15: the first notice that may be sent in creation order is the one the start finds and the one it stamps; where
no start is made, either none is eligible or a condition of R132 fails. -/
theorem noticeStartSendsTheEligibleNotice : Obligations.NoticeStartSendsTheEligibleNotice := by
  intro s hquiet
  rw [exec_noticeTransmissionStart_of_quiet hquiet]
  refine ⟨fun before n after hsplit hqueued hunheld hbefore hmute hsent hfree hreplies => ?started, fun hno => ?notStarted⟩
  case started =>
    exact congrArg Host.Outcome.next (State.startNotice_of_eligible hsplit (Notice.sendable_iff.mpr ⟨hqueued, hunheld⟩)
      (fun m hm => Notice.not_sendable_iff.mpr (hbefore m hm))
      (State.mayStartNotice_iff.mpr ⟨hmute, hsent, hfree, hreplies⟩))
  case notStarted =>
    refine congrArg Host.Outcome.next ?_
    rcases hno with hheld | hcondition
    · exact State.startNotice_of_none_eligible
        (State.eligible_eq_none_iff.mpr fun n hn => Notice.not_sendable_iff.mpr (hheld n hn))
    · refine State.startNotice_of_not_may fun hmay => ?_
      obtain ⟨hmute, hsent, hfree, hreplies⟩ := State.mayStartNotice_iff.mp hmay
      rcases hcondition with h | h | h | h
      · exact absurd h (by simp [hmute])
      · omega
      · exact h hfree
      · exact h hreplies

end Sys2Proof.Machine
end

section
/-! PROOFS. A counted run as one update and the notices that it submits (R53), and a visit of the due check likewise (R35). -/

namespace Sys2Proof.Machine

/-! ### Several submissions in order -/

/-- What submissions write depends on the notice fields and the counter alone. -/
theorem State.foldl_submit_congr (found : List NoticeContent) {s t : State} (hn : t.notices = s.notices)
    (hq : t.nextSeq = s.nextSeq) (hg : t.gapAcc = s.gapAcc) (hd : t.dropped = s.dropped) (hc : t.counter = s.counter) :
    found.foldl State.submit t = { t with
      notices := (found.foldl State.submit s).notices
      nextSeq := (found.foldl State.submit s).nextSeq
      gapAcc := (found.foldl State.submit s).gapAcc
      dropped := (found.foldl State.submit s).dropped } := by
  induction found generalizing s t with
  | nil => rw [List.foldl_nil, List.foldl_nil, ← hn, ← hq, ← hg, ← hd]
  | cons c found ih =>
    have hsubmit := State.submit_congr c hn hq hg hd hc
    have hcounter : (t.submit c).counter = (s.submit c).counter := by simp [hc]
    rw [List.foldl_cons, List.foldl_cons, ih (s := s.submit c) (t := t.submit c) (by rw [hsubmit]) (by rw [hsubmit])
      (by rw [hsubmit]) (by rw [hsubmit]) hcounter]
    rw [hsubmit]

/-- Submissions touch the notices, the next number, the gap accumulator and the dropped total alone. -/
theorem State.foldl_submit_frame (found : List NoticeContent) (s : State) :
    found.foldl State.submit s = { s with
      notices := (found.foldl State.submit s).notices
      nextSeq := (found.foldl State.submit s).nextSeq
      gapAcc := (found.foldl State.submit s).gapAcc
      dropped := (found.foldl State.submit s).dropped } :=
  State.foldl_submit_congr found rfl rfl rfl rfl rfl

@[simp] theorem State.foldl_submit_probes (found : List NoticeContent) (s : State) :
    (found.foldl State.submit s).probes = s.probes := by rw [State.foldl_submit_frame]

@[simp] theorem State.foldl_submit_probe (found : List NoticeContent) (s : State) (i : Fin 32) :
    (found.foldl State.submit s).probe i = s.probe i := by simp [State.probe]

/-- A record may be written before the submissions or after them. -/
theorem State.setProbe_foldl_submit (found : List NoticeContent) (s : State) (i : Fin 32) (p : Probe) :
    (found.foldl State.submit s).setProbe i p = found.foldl State.submit (s.setProbe i p) := by
  rw [State.foldl_submit_congr found (s := s) (t := s.setProbe i p) rfl rfl rfl rfl rfl, State.foldl_submit_frame]
  rfl

/-- A SCHEDULED entry may be queued before the submissions or after them. -/
theorem State.queueScheduled_foldl_submit (found : List NoticeContent) (s : State) (i : Fin 32) (followUp : Bool) :
    (found.foldl State.submit s).queueScheduled i followUp =
      found.foldl State.submit (s.queueScheduled i followUp) := by
  rw [State.foldl_submit_congr found (s := s) (t := s.queueScheduled i followUp) rfl rfl rfl rfl rfl,
    State.foldl_submit_frame]
  rfl

@[simp] theorem State.foldl_submit_scheduler (found : List NoticeContent) (s : State) :
    (found.foldl State.submit s).scheduler = s.scheduler := by rw [State.foldl_submit_frame]

/-- The scheduler may change before the submissions or after them. -/
theorem State.reschedule_foldl_submit (found : List NoticeContent) (s : State) (next : SchedulerState) :
    { found.foldl State.submit s with scheduler := next } = found.foldl State.submit { s with scheduler := next } := by
  rw [State.foldl_submit_congr found (s := s) (t := { s with scheduler := next }) rfl rfl rfl rfl rfl,
    State.foldl_submit_frame]

/-! ### The class of a queued entry -/

/-- The order of R45 depends on the probe classes alone. -/
theorem State.standsBehind_congr {s t : State} (h : ∀ i, t.classOf i = s.classOf i) (e : ScheduledEntry) :
    t.standsBehind e = s.standsBehind e := by
  funext y
  cases y <;> simp only [State.standsBehind, h]

/-- A record written with its definition kept leaves every probe's class. -/
theorem State.classOf_setProbe {s : State} {i : Fin 32} {p : Probe} (h : p.defn = (s.probe i).defn) (j : Fin 32) :
    (s.setProbe i p).classOf j = s.classOf j := by
  by_cases hj : j = i
  · subst hj; simp [State.classOf, h]
  · simp [State.classOf, State.probe_setProbe_ne s p hj]

/-- A record may be written before its entry is queued or after, if it keeps definition and generation. -/
theorem State.queueScheduled_setProbe {s : State} {i : Fin 32} {p : Probe} (hd : p.defn = (s.probe i).defn)
    (hg : p.generation = (s.probe i).generation) (followUp : Bool) :
    (s.setProbe i p).queueScheduled i followUp = (s.queueScheduled i followUp).setProbe i p := by
  simp only [State.queueScheduled, State.probe_setProbe_same, hg, State.setProbe_counter, State.setProbe_elapsed,
    State.standsBehind_congr (State.classOf_setProbe hd)]
  rfl

/-! ### The parts of a counted run -/

/-- The record after the evaluator's step (R65, R88). -/
def Probe.afterRun (p : Probe) (d : Definition) : RunResult → Probe
  | .level v => p.afterLevel d v
  | .window raw => p.afterWindow d raw
  | .check v => p.countCode v

/-- The health after the evaluator's step (R87). -/
def State.healthAfter (s : State) : RunResult → Health
  | .check v => s.health.afterCheck (checkPasses s.tolerance v)
  | .level _ | .window _ => s.health

/-- The run's contribution to its history record (R97, R99). -/
def State.dataOf (s : State) (p : Probe) (d : Definition) : RunResult → RunData
  | .level v => .level v (d.style.window?.map fun w => w.classify p.confirmed v)
  | .window raw => .window raw
  | .check v => .check v (!checkPasses s.tolerance v)

/-- The CROSSING notice of a move, if the notify set asks for it (R73 to R75). -/
def moveFound (i : Fin 32) (d : Definition) (p q : Probe) (raw : RawVerdict) (value : Option Code) (suspect : Bool) :
    List NoticeContent :=
  if q.confirmed ≠ p.confirmed ∧ (if p.confirmed = .unknown then d.notify.initial else d.notify.crossing) = true then
    [.crossing i q.generation p.confirmed raw value suspect 1]
  else []

/-- The CONDITION notice of a check that moves the health into or out of SUSPECT (R89). -/
def healthFound : Bool → Bool → List NoticeContent
  | false, true => [.condition .converterSuspect]
  | true, false => [.condition .converterGood]
  | _, _ => []

/-- The notices the evaluator's step finds. -/
def State.found (s : State) (i : Fin 32) (d : Definition) (r : RunResult) : List NoticeContent :=
  let p := s.probe i
  match r with
  | .level v => match d.style.window? with
    | some w => moveFound i d p (p.afterLevel d v) (w.classify p.confirmed v) (some v) s.health.isSuspect
    | none => []
  | .window raw => moveFound i d p (p.afterWindow d raw) raw none s.health.isSuspect
  | .check _ => healthFound s.health.isSuspect (s.healthAfter r).isSuspect

/-- A follow-up entry is queued: a WINDOW run escalates the probe in RUNNING (R79). -/
def State.follows (s : State) (i : Fin 32) (d : Definition) : RunResult → Bool
  | .window raw => ((s.probe i).escalates d raw).isSome && s.scheduler = .running
  | .level _ | .check _ => false

/-- The due queue after the evaluator's step (R79). -/
def State.queueAfter (s : State) (i : Fin 32) (d : Definition) (r : RunResult) : List DueEntry :=
  if s.follows i d r then (s.queueScheduled i true).dueQueue else s.dueQueue

/-- The WATERMARK notice of an append that raises the fill to the watermark (R101). -/
def watermarkFound (i : Fin 32) (d : Definition) (q : Probe) : List NoticeContent :=
  if q.ring.length < d.depth ∧ q.ring.length + 1 = d.watermark ∧ q.watermarkReached = false ∧ d.notify.watermark = true
  then [.watermark i q.generation d.watermark d.depth] else []

/-! ### The evaluator's step as one update -/

theorem Probe.settleBy_frame (p : Probe) (w : Window) (r : RawVerdict) :
    p.settleBy w r = { p with
      confirmed := (settleVerdict w.settle p.confirmed p.candidate r).1
      candidate := (settleVerdict w.settle p.confirmed p.candidate r).2 } := rfl

/-- The evaluator changes the verdict fields, the mode, the runs and the last value of the record alone. -/
theorem Probe.afterRun_frame (p : Probe) (d : Definition) (r : RunResult) :
    p.afterRun d r = { p with
      confirmed := (p.afterRun d r).confirmed
      candidate := (p.afterRun d r).candidate
      mode := (p.afterRun d r).mode
      runs := (p.afterRun d r).runs
      lastValue := (p.afterRun d r).lastValue } := by
  have countDown_frame : ∀ q : Probe, q.countDown = { q with mode := q.countDown.mode } := fun q => by
    unfold Probe.countDown; split <;> rfl
  cases r with
  | level v =>
    simp only [Probe.afterRun, Probe.afterLevel]
    rw [countDown_frame]
    cases d.style.window? <;> rfl
  | window raw =>
    simp only [Probe.afterRun, Probe.afterWindow]
    cases p.escalates d raw <;> cases d.style.window? <;> rfl
  | check v => rfl

@[simp] theorem Probe.afterRun_defn (p : Probe) (d : Definition) (r : RunResult) : (p.afterRun d r).defn = p.defn := by
  rw [Probe.afterRun_frame]
@[simp] theorem Probe.afterRun_generation (p : Probe) (d : Definition) (r : RunResult) :
    (p.afterRun d r).generation = p.generation := by rw [Probe.afterRun_frame]
@[simp] theorem Probe.afterRun_state (p : Probe) (d : Definition) (r : RunResult) :
    (p.afterRun d r).state = p.state := by rw [Probe.afterRun_frame]
@[simp] theorem Probe.afterRun_nextDue (p : Probe) (d : Definition) (r : RunResult) :
    (p.afterRun d r).nextDue = p.nextDue := by rw [Probe.afterRun_frame]
@[simp] theorem Probe.afterRun_ring (p : Probe) (d : Definition) (r : RunResult) :
    (p.afterRun d r).ring = p.ring := by rw [Probe.afterRun_frame]

/-- A report is the submission of what the move found. -/
theorem State.reportMove_eq (s : State) (i : Fin 32) (d : Definition) (p : Probe) (raw : RawVerdict)
    (value : Option Code) :
    s.reportMove i d p.confirmed raw value =
      (moveFound i d p (s.probe i) raw value s.health.isSuspect).foldl State.submit s := by
  simp only [State.reportMove, moveFound]
  by_cases h : (s.probe i).confirmed ≠ p.confirmed ∧
      (if p.confirmed = .unknown then d.notify.initial else d.notify.crossing) = true
  · rw [if_pos h, if_pos h]; rfl
  · rw [if_neg h, if_neg h]; rfl

/-- The judgement of a check is a new health and the submission of what it found. -/
theorem State.judgeCheck_eq (s : State) (v : Code) :
    s.judgeCheck v = (healthFound s.health.isSuspect (s.healthAfter (.check v)).isSuspect).foldl State.submit
      { s with health := s.healthAfter (.check v) } := by
  simp only [State.judgeCheck, State.healthAfter]
  cases s.health.isSuspect <;> cases (s.health.afterCheck (checkPasses s.tolerance v)).isSuspect <;> rfl

/-- The evaluator's step writes the record, the health and the due queue, and submits what it found (R53, R65, R79). -/
theorem State.evaluateRun_eq (s : State) (i : Fin 32) (d : Definition) (r : RunResult) :
    s.evaluateRun i d r =
      ((s.found i d r).foldl State.submit
        { s.setProbe i ((s.probe i).afterRun d r) with health := s.healthAfter r, dueQueue := s.queueAfter i d r },
       s.dataOf (s.probe i) d r) := by
  cases r with
  | level v =>
    cases hw : d.style.window? with
    | none => simp [State.evaluateRun, hw, State.found, State.dataOf, State.healthAfter, State.queueAfter,
        State.follows, Probe.afterRun]; rfl
    | some w =>
      simp only [State.evaluateRun, hw, State.reportMove_eq, State.probe_setProbe_same, State.found, State.dataOf]
      rfl
  | check v =>
    simp only [State.evaluateRun, State.judgeCheck_eq, State.found]
    rfl
  | window raw =>
    let t := (s.found i d (.window raw)).foldl State.submit (s.setProbe i ((s.probe i).afterRun d (.window raw)))
    have hreport : s.evaluateRun i d (.window raw) =
        (if s.follows i d (.window raw) then t.queueScheduled i true else t, .window raw) := by
      simp only [State.evaluateRun, State.reportMove_eq, State.probe_setProbe_same]
      rfl
    rw [hreport]
    refine Prod.ext ?_ rfl
    by_cases hf : s.follows i d (.window raw) = true
    · simp only [t, hf, if_true, State.queueAfter, State.queueScheduled_foldl_submit,
        State.queueScheduled_setProbe (Probe.afterRun_defn _ _ _) (Probe.afterRun_generation _ _ _)]
      rfl
    · simp only [t, hf, State.queueAfter]
      rfl

/-- The record of the run as the evaluator's step left the health (R99). -/
def State.recordAfter (s : State) (e : ScheduledEntry) (d : Definition) (r : RunResult) : HistoryRecord :=
  ⟨s.counter, s.dataOf (s.probe e.probe) d r, (s.healthAfter r).isSuspect, e.followUp⟩

/-- The record of the probe after a counted run. -/
def State.probeAfter (s : State) (e : ScheduledEntry) (d : Definition) (r : RunResult) : Probe :=
  ((s.probe e.probe).afterRun d r).withRecord d (s.recordAfter e d r)

/-- The notices of a counted run, in the order in which they are submitted (R53). -/
def State.runFound (s : State) (e : ScheduledEntry) (d : Definition) (r : RunResult) : List NoticeContent :=
  s.found e.probe d r ++ watermarkFound e.probe d ((s.probe e.probe).afterRun d r)

/-- A counted run writes the record, the health and the due queue, and submits its notices in order (R53). -/
theorem State.countRun_eq (s : State) (e : ScheduledEntry) (d : Definition) (r : RunResult) :
    s.countRun e d r = (s.runFound e d r).foldl State.submit
      { s.setProbe e.probe (s.probeAfter e d r) with
        health := s.healthAfter r, dueQueue := s.queueAfter e.probe d r } := by
  let q := (s.probe e.probe).afterRun d r
  let u : State :=
    { s.setProbe e.probe q with health := s.healthAfter r, dueQueue := s.queueAfter e.probe d r }
  have hprobe : u.probe e.probe = q := State.probe_setProbe_same s e.probe q
  have hrecord : ((s.found e.probe d r).foldl State.submit u).recordOf e (s.dataOf (s.probe e.probe) d r) =
      s.recordAfter e d r := by
    simp only [State.recordOf, State.recordAfter]
    rw [State.foldl_submit_frame]
    rfl
  have hwrite : u.setProbe e.probe (q.withRecord d (s.recordAfter e d r)) =
      { s.setProbe e.probe (s.probeAfter e d r) with
        health := s.healthAfter r, dueQueue := s.queueAfter e.probe d r } := by
    simp only [u, State.probeAfter, q, State.setProbe, Vector.set_set]
  have hrun : s.countRun e d r =
      (((s.found e.probe d r).foldl State.submit u).clearLatch e.probe).appendHistory e.probe d
        (s.recordAfter e d r) := by
    rw [State.countRun, State.evaluateRun_eq]
    exact congrArg (State.appendHistory _ e.probe d) hrecord
  rw [hrun, State.clearLatch_appendHistory, State.foldl_submit_probe, hprobe, State.setProbe_foldl_submit, hwrite,
    State.runFound, List.foldl_append]
  rfl

/-! ### The visit of the due check as one update -/

/-- The record of a probe that comes due, with its next due advanced (R34). -/
def Probe.advanced (p : Probe) (d : Definition) : Probe :=
  { p with nextDue := p.nextDue.map fun v => v + d.period.setWidth 32 }

/-- The record of a probe that comes due with a run outstanding (R37). -/
def Probe.overrun (p : Probe) (d : Definition) : Probe :=
  { p.advanced d with overruns := satInc p.overruns, overrunLatch := p.overrunLatch || d.notify.overrun }

/-- The OVERRUN notice of the first overrun since the latch was cleared, if the notify set asks for it (R37). -/
def overrunFound (i : Fin 32) (d : Definition) (p : Probe) : List NoticeContent :=
  if d.notify.overrun = true ∧ p.overrunLatch = false then [.overrun i p.generation (satInc p.overruns)] else []

/-- An overrun and the advance write the record and submit the notice (R34, R37). -/
theorem State.countOverrun_advanceDue (s : State) (i : Fin 32) (d : Definition) :
    (s.countOverrun i d).advanceDue i d =
      (overrunFound i d (s.probe i)).foldl State.submit (s.setProbe i ((s.probe i).overrun d)) := by
  have hcount : s.countOverrun i d = (overrunFound i d (s.probe i)).foldl State.submit (s.setProbe i
      { s.probe i with
        overruns := satInc (s.probe i).overruns
        overrunLatch := (s.probe i).overrunLatch || d.notify.overrun }) := by
    cases hn : d.notify.overrun <;> cases hl : (s.probe i).overrunLatch <;>
      simp [State.countOverrun, overrunFound, hn, hl]
  rw [hcount, State.advanceDue, State.foldl_submit_probe, State.probe_setProbe_same, State.setProbe_foldl_submit,
    State.setProbe_setProbe]
  rfl

/-- A queued entry and the advance (R34, R35). -/
theorem State.queueScheduled_advanceDue (s : State) (i : Fin 32) (d : Definition) :
    (s.queueScheduled i false).advanceDue i d = (s.queueScheduled i false).setProbe i ((s.probe i).advanced d) := rfl

end Sys2Proof.Machine
end

section
/-! PROOFS. What a step can do: the changes it is made of. Every law that a step keeps is derived from this one inversion. -/

namespace Sys2Proof.Machine

/-! ### Kinds of change -/

/-- The two states agree in every field that a law speaks of. -/
structure SameStore (s t : State) : Prop where
  scheduler : t.scheduler = s.scheduler
  probes : t.probes = s.probes
  freeCount : t.freeCount = s.freeCount
  dueQueue : t.dueQueue = s.dueQueue
  engine : t.engine = s.engine
  notices : t.notices = s.notices
  mute : t.mute = s.mute
  inbox : t.inbox = s.inbox
  parked : t.parked = s.parked
  replies : t.replies = s.replies
  nextLink : t.nextLink = s.nextLink

/-- The store as every reset leaves it, at its beginning without a notice and at its end with STARTUP. -/
structure ResetStore (t : State) : Prop where
  scheduler : t.scheduler = .stopped
  probe : ∀ i, t.probe i = Probe.cleared 0
  freeCount : t.freeCount = 512
  dueQueue : t.dueQueue = []
  engine : t.engine = .idle ∨ t.engine = .quiesced
  notices : t.notices = [] ∨ ∃ cause quiesce, t.notices = [Notice.startup cause quiesce]
  mute : t.mute = false
  inbox : t.inbox = []
  parked : t.parked = []
  replies : t.replies = []
  nextLink : t.nextLink = 0

/-- A change of the notice queue and MUTE. -/
inductive NoticeChange (s : State) : State → Prop
  | submitted (c : NoticeContent) : NoticeChange s (s.submit c)
  | muteEnded : NoticeChange s s.endMute
  | examined : NoticeChange s s.examineTimeouts
  | started : NoticeChange s s.startNotice
  | acknowledged (numbers : List Half) :
      NoticeChange s { s with notices := (numbers.foldl ackOne (s.notices, 0, 0)).1 }
  | restarted : NoticeChange s { s with notices := s.restartedNotices, mute := false }

/-- A change of the inbox and the reply queue. -/
inductive QueueChange (s : State) : State → Prop
  | placed (f : Frame) (room : s.inbox.length < 4) : QueueChange s { s with inbox := s.inbox ++ [f] }
  | taken {f : Frame} {rest : List Frame} (front : s.inbox = f :: rest) : QueueChange s { s with inbox := rest }
  | replied (r : Reply) (slot : s.replies.length < 8) : QueueChange s (s.queueReply r)
  | sent {r : Reply} {rest : List Reply} (front : s.replies = r :: rest) : QueueChange s { s with replies := rest }
  | emptied : QueueChange s { s with inbox := [], replies := [] }

/-- A change of the parked list. -/
inductive ParkedChange (s : State) : State → Prop
  | pauseParked {tag : Byte} (fresh : ∀ e ∈ s.parked, e.tag ≠ tag) (room : s.parked.length < 4) :
      ParkedChange s (s.park tag .pause)
  | measureParked {tag : Byte} {i : Fin 32} (fresh : ∀ e ∈ s.parked, e.tag ≠ tag)
      (alone : s.parked.any (ParkedEntry.isMeasureOf i) = false) (room : s.parked.length < 4) :
      ParkedChange s ((s.park tag (.measure i)).queueOneShot ⟨i, s.nextLink⟩)
  | outcomeQueued : ParkedChange s s.queueParked
  | pausesFixed (body : ReplyBody) : ParkedChange s (s.fixOutcomes ParkedEntry.isPause body)
  | shotAnswered {e : OneShotEntry} {op : Operation} {channel : Fin 17} (body : ReplyBody)
      (flight : s.engine = .busy ⟨.oneShot e, op, channel⟩) :
      ParkedChange s ({ s with engine := .idle }.fixOutcomes (fun p => p.link = e.link) body)
  | measuresFixed {i : Fin 32} (body : ReplyBody) (gone : ∀ x ∈ s.dueQueue, x.isOneShotOf i = false) :
      ParkedChange s (s.fixOutcomes (ParkedEntry.isMeasureOf i) body)
  | unlinked : ParkedChange s { s with parked := [], dueQueue := s.dueQueue.filter fun e => !e.isOneShot }

/-- The scheduler state after the completion of a scheduled operation (R31). -/
def SchedulerState.drained : SchedulerState → SchedulerState
  | .draining => .stopped
  | other => other

/-- A change of the engine. -/
inductive EngineChange (s : State) : State → Prop
  | took {x : DueEntry} {rest : List DueEntry} {d : Definition} (op : Operation) (idle : s.engine = .idle)
      (front : s.dueQueue = x :: rest) (defn : (s.probe x.probe).defn = some d) :
      EngineChange s { s with dueQueue := rest, engine := .busy ⟨x, op, d.channel⟩ }
  | gated {x : DueEntry} {op : Operation} {channel : Fin 17} (op' : Operation)
      (flight : s.engine = .busy ⟨x, op, channel⟩) : EngineChange s { s with engine := .busy ⟨x, op', channel⟩ }
  | ended {e : ScheduledEntry} {op : Operation} {channel : Fin 17} {after : Engine}
      (flight : s.engine = .busy ⟨.scheduled e, op, channel⟩) (free : after = .idle ∨ after = .quiesced) :
      EngineChange s { s with engine := after, scheduler := s.scheduler.drained }
  | counted {e : ScheduledEntry} {op : Operation} {channel : Fin 17} {d : Definition} (r : RunResult)
      (flight : s.engine = .busy ⟨.scheduled e, op, channel⟩) (counts : s.countedDefn e = some d) :
      EngineChange s { s.setProbe e.probe (s.probeAfter e d r) with
        engine := .idle
        scheduler := s.scheduler.drained
        health := s.healthAfter r
        dueQueue := s.queueAfter e.probe d r }
  | shotDiscarded {e : OneShotEntry} {op : Operation} {channel : Fin 17}
      (flight : s.engine = .busy ⟨.oneShot e, op, channel⟩) : EngineChange s { s with engine := .quiesced }
  | shotReturned {e : OneShotEntry} {op : Operation} {channel : Fin 17}
      (flight : s.engine = .busy ⟨.oneShot e, op, channel⟩) (awaited : s.linkAwaited e.link = true) :
      EngineChange s { s with engine := .quiesced, dueQueue := .oneShot e :: s.dueQueue }
  | quiesced (idle : s.engine = .idle) : EngineChange s { s with engine := .quiesced }
  | released (quiesced : s.engine = .quiesced) : EngineChange s { s with engine := .idle }

/-- A change of the probe table, by a command or by the due check. -/
inductive ProbeChange (s : State) : State → Prop
  | defined {f : Frame} {i : Fin 32} {d : Definition} (free : (s.probe i).state = .free)
      (checked : checkDefinition (defineFields f.payload) = .ok d) (room : d.depth ≤ s.freeCount) :
      ProbeChange s { s.setProbe i ((s.probe i).define d) with freeCount := s.freeCount - d.depth }
  | armed {i : Fin 32} {d : Definition} {due : Option Tick} (state : (s.probe i).state = .defined)
      (defn : (s.probe i).defn = some d) (dueIff : due.isSome ↔ s.scheduler = .running) :
      ProbeChange s (s.setProbe i ((s.probe i).arm d due))
  | disarmed {i : Fin 32} (state : (s.probe i).state = .armed) :
      ProbeChange s ((s.setProbe i { s.probe i with state := .defined, nextDue := none }).dropEntries
        (DueEntry.isScheduledOf i))
  | limited {f : Frame} {i : Fin 32} {d : Definition} {window : Option Window} (state : (s.probe i).state ≠ .free)
      (defn : (s.probe i).defn = some d) (style : d.style ≠ .check)
      (checked : checkWindow d.style.need (halfAt f.payload 1) (halfAt f.payload 3) (byteAt f.payload 5)
        (byteAt f.payload 6) = .ok window) :
      ProbeChange s ((s.setProbe i ((s.probe i).limit d window)).dropEntries (DueEntry.isScheduledOf i))
  | drained {i : Fin 32} {d : Definition} (skip k : Nat) :
      ProbeChange s (s.setProbe i ((s.probe i).drain d skip k))
  | deleted {i : Fin 32} (state : (s.probe i).state ≠ .free) :
      ProbeChange s ({ s.setProbe i (Probe.cleared (s.probe i).generation) with
        freeCount := s.freeCount + (s.probe i).depth }.dropEntries fun e => e.isScheduledOf i || e.isOneShotOf i)
  | aligned (idle : s.scheduler ≠ .running) : ProbeChange s s.enterRunning
  | stopped (running : s.scheduler = .running) : ProbeChange s (s.leaveRunning .stopped)
  | draining (running : s.scheduler = .running) (flight : s.scheduledInFlight = true) :
      ProbeChange s (s.leaveRunning .draining)
  | overran {i : Fin 32} {d : Definition} (running : s.scheduler = .running) (due : s.DueNow i d) :
      ProbeChange s (s.setProbe i ((s.probe i).overrun d))
  | cameDue {i : Fin 32} {d : Definition} (running : s.scheduler = .running) (due : s.DueNow i d)
      (outstanding : s.runOutstanding i = false) :
      ProbeChange s ((s.queueScheduled i false).setProbe i ((s.probe i).advanced d))

/-- One change of the part; none touches the model's queue of commands (log 18). -/
inductive Change (s t : State) : Prop
  | outside (same : SameStore s t) (pending : t.pending = s.pending)
  | reset (store : ResetStore t) (pending : t.pending = s.pending)
  | notices (change : NoticeChange s t)
  | queues (change : QueueChange s t)
  | parked (change : ParkedChange s t)
  | engine (change : EngineChange s t)
  | probes (change : ProbeChange s t)

/-- Several changes in turn. -/
def Changes : State → State → Prop := Relation.ReflTransGen Change

/-! ### What a kind of change leaves alone -/

theorem SameStore.refl (s : State) : SameStore s s := ⟨rfl, rfl, rfl, rfl, rfl, rfl, rfl, rfl, rfl, rfl, rfl⟩

theorem SameStore.probe {s t : State} (h : SameStore s t) (i : Fin 32) : t.probe i = s.probe i := by
  simp only [State.probe, h.probes]

/-- A change of the notice queue touches the notices and MUTE alone. -/
theorem NoticeChange.same {s t : State} (h : NoticeChange s t) :
    SameStore s { t with notices := s.notices, mute := s.mute } ∧ t.pending = s.pending := by
  cases h with
  | submitted c => exact ⟨by constructor <;> simp, by simp⟩
  | examined =>
    unfold State.examineTimeouts
    dsimp only
    split <;> exact ⟨SameStore.refl _, rfl⟩
  | started =>
    unfold State.startNotice
    split
    · split <;> exact ⟨by constructor <;> rfl, rfl⟩
    · exact ⟨SameStore.refl _, rfl⟩
  | muteEnded | acknowledged | restarted => exact ⟨by constructor <;> rfl, rfl⟩

/-- A change of the inbox and the reply queue touches these alone. -/
theorem QueueChange.same {s t : State} (h : QueueChange s t) :
    SameStore s { t with inbox := s.inbox, replies := s.replies } ∧ t.pending = s.pending := by
  cases h <;> exact ⟨by constructor <;> rfl, rfl⟩

/-- A change of the parked list touches this, the reply queue, the ONE_SHOT entries, a one-shot in flight and the numbering
alone. -/
theorem ParkedChange.same {s t : State} (h : ParkedChange s t) :
    SameStore s { t with
      dueQueue := s.dueQueue, engine := s.engine, parked := s.parked, replies := s.replies, nextLink := s.nextLink } ∧
      t.pending = s.pending := by
  cases h with
  | outcomeQueued =>
    unfold State.queueParked
    split
    · split <;> exact ⟨by constructor <;> rfl, rfl⟩
    · exact ⟨SameStore.refl _, rfl⟩
  | pausesFixed | measuresFixed | shotAnswered => exact ⟨by constructor <;> simp, by simp⟩
  | pauseParked | measureParked | unlinked => exact ⟨by constructor <;> rfl, rfl⟩

theorem EngineChange.pending {s t : State} (h : EngineChange s t) : t.pending = s.pending := by
  cases h <;> rfl

theorem ProbeChange.pending {s t : State} (h : ProbeChange s t) : t.pending = s.pending := by
  cases h <;> rfl

/-- No change touches the model's queue (log 18). -/
theorem Change.pending_eq {s t : State} (h : Change s t) : t.pending = s.pending := by
  cases h with
  | outside _ hp | reset _ hp => exact hp
  | notices h | queues h | parked h => exact h.same.2
  | engine h | probes h => exact h.pending

theorem Changes.pending {s t : State} (h : Changes s t) : t.pending = s.pending := by
  induction h with
  | refl => rfl
  | tail _ hlast ih => rw [hlast.pending_eq, ih]

end Sys2Proof.Machine
end

section
/-! PROOFS. Every command answers a next state, which its changes lead to; what is kept by every change is kept by every step. -/

namespace Sys2Proof.Machine

/-! ### Changes in turn -/

namespace Changes

theorem refl (s : State) : Changes s s := Relation.ReflTransGen.refl

theorem trans {s t u : State} (h : Changes s t) (h' : Changes t u) : Changes s u := Relation.ReflTransGen.trans h h'

theorem single {s t : State} (h : Change s t) : Changes s t := Relation.ReflTransGen.single h

theorem outside {s t : State} (h : SameStore s t) (hp : t.pending = s.pending) : Changes s t := single (.outside h hp)

theorem submit (s : State) (c : NoticeContent) : Changes s (s.submit c) := single (.notices (.submitted c))

theorem foldl_submit (found : List NoticeContent) (s : State) : Changes s (found.foldl State.submit s) := by
  induction found generalizing s with
  | nil => exact refl s
  | cons c found ih => exact (submit s c).trans (ih _)

theorem queueReply {s : State} (r : Reply) (slot : s.replies.length < 8) : Changes s (s.queueReply r) :=
  single (.queues (.replied r slot))

theorem answer {s : State} (f : Frame) (body : ReplyBody) (slot : s.replies.length < 8) : Changes s (s.answer f body) :=
  queueReply _ slot

/-- Changes, and then an answer. -/
theorem thenAnswer {s t : State} {f : Frame} {body : ReplyBody} (h : Changes s t) (slot : t.replies.length < 8) :
    Changes s (t.answer f body) :=
  h.trans (answer f body slot)

/-- What every change keeps, several changes keep. -/
theorem keep {P : State → Prop} (hP : ∀ s t, Change s t → P s → P t) {s t : State} (h : Changes s t) (hs : P s) : P t := by
  induction h with
  | refl => exact hs
  | tail _ hlast ih => exact hP _ _ hlast ih

end Changes

/-! ### Owed work -/

theorem State.receive_changes (s : State) (kind tag : Byte) (payload : List Byte) :
    Changes s (s.receive kind tag payload) := by
  refine (Changes.single (.notices .muteEnded)).trans ?_
  have overflow : Changes s.endMute s.endMute.countOverflow := .outside (by constructor <;> rfl) rfl
  unfold State.receive
  dsimp only
  split
  · split
    case isTrue slot => exact .queueReply _ (of_decide_eq_true slot)
    case isFalse => exact overflow
  · split
    case isTrue room => exact .single (.queues (.placed _ room))
    case isFalse =>
      split
      case isTrue slot => exact overflow.trans (.queueReply _ (of_decide_eq_true slot))
      case isFalse => exact overflow

theorem State.runReceipt_changes (s : State) : Changes s s.runReceipt := by
  unfold State.runReceipt
  split
  · have paid : Changes s { s with owed := { s.owed with receipt := none } } := .outside (by constructor <;> rfl) rfl
    exact paid.trans (State.receive_changes _ _ _ _)
  · exact .refl s

theorem State.dueVisit_changes {s : State} (running : s.scheduler = .running) (i : Fin 32) :
    Changes s (s.dueVisit i) := by
  obtain h | ⟨d, ⟨due, -⟩, h⟩ | ⟨d, ⟨due, outstanding⟩, h⟩ := s.dueVisit_cases i
  · rw [h]; exact .refl s
  · rw [h, State.countOverrun_advanceDue]
    exact (Changes.single (.probes (.overran running due))).trans (.foldl_submit _ _)
  · rw [h, State.queueScheduled_advanceDue]
    exact .single (.probes (.cameDue running due outstanding))

theorem State.dueCheckNow_changes (s : State) : Changes s s.dueCheckNow := by
  unfold State.dueCheckNow
  split
  case isFalse => exact .refl s
  case isTrue running =>
    generalize List.finRange 32 = ids
    induction ids generalizing s with
    | nil => exact .refl s
    | cons i ids ih => exact (State.dueVisit_changes running i).trans (ih _ (by simpa using running))

theorem State.runDueCheck_changes (s : State) : Changes s s.runDueCheck := by
  unfold State.runDueCheck
  split
  · have paid : Changes s { s with owed := { s.owed with dueCheck := false } } := .outside (by constructor <;> rfl) rfl
    exact paid.trans (State.dueCheckNow_changes _)
  · exact .refl s

theorem State.runTimeouts_changes (s : State) : Changes s s.runTimeouts := by
  unfold State.runTimeouts
  split
  · have paid : Changes s { s with owed := { s.owed with timeouts := false } } := .outside (by constructor <;> rfl) rfl
    exact paid.trans (.single (.notices .examined))
  · exact .refl s

theorem State.runGap_changes (s : State) : Changes s s.runGap := by
  rw [State.runGap_frame]
  exact .outside (by constructor <;> rfl) rfl

theorem State.settled_changes (s : State) : Changes s s.settled :=
  s.runReceipt_changes.trans ((State.runDueCheck_changes _).trans
    ((State.runTimeouts_changes _).trans (State.runGap_changes _)))

theorem State.unlessReset_changes {event : State → State} (h : ∀ s, Changes s (event s)) (s : State) :
    Changes s (s.unlessReset event) := by
  unfold State.unlessReset
  split
  · exact .refl s
  · exact h s

theorem State.act_changes {event : State → State} (h : ∀ s, Changes s (event s)) (s : State) : Changes s (s.act event) :=
  State.unlessReset_changes (fun t => t.settled_changes.trans (h t.settled)) s

/-! ### The taking of a command -/

/-- A command's effect is made of changes where a reply slot is free and no parked entry carries the frame's tag. -/
def CarriesOut (carryOut : Frame → State → State) : Prop :=
  ∀ (f : Frame) (s : State), s.replies.length < 8 → (∀ e ∈ s.parked, e.tag ≠ f.tag) → Changes s (carryOut f s)

theorem State.takeCommand_changes {c : HostCommand} {carryOut : Frame → State → State} (h : CarriesOut carryOut)
    (s : State) : Changes s (s.takeCommand c carryOut) := by
  unfold State.takeCommand
  split
  · exact .refl s
  case h_2 f rest front =>
    split
    case isFalse => exact .refl s
    case isTrue may =>
      simp only [Bool.and_eq_true, State.canTake, State.replySlot, decide_eq_true_eq] at may
      obtain ⟨-, ⟨slot, -⟩, -⟩ := may
      refine (Changes.single (.queues (.taken front))).trans ?_
      dsimp only
      split
      case isTrue => exact .answer _ _ slot
      case isFalse fresh => exact h f _ slot (by simpa using fresh)

theorem State.serve_changes {c : HostCommand} {carryOut : Frame → State → State} (h : CarriesOut carryOut) (s : State) :
    Changes s (s.serve c carryOut) :=
  State.act_changes (State.takeCommand_changes h) s

theorem CarriesOut.onProbe {carryOut : Frame → Fin 32 → State → State} (h : ∀ i, CarriesOut fun f => carryOut f i) :
    CarriesOut fun f => State.onProbe f (carryOut f) := by
  intro f s slot fresh
  unfold State.onProbe
  dsimp only
  split
  · exact h _ f s slot fresh
  · exact .answer _ _ slot

/-- A command that writes only what no law speaks of, and answers. -/
theorem CarriesOut.configures {write : Frame → State → State} {body : Frame → State → ReplyBody}
    (hw : ∀ f s, SameStore s (write f s) ∧ (write f s).pending = s.pending) :
    CarriesOut fun f s => (write f s).answer f (body f s) := by
  intro f s slot _
  obtain ⟨same, pending⟩ := hw f s
  exact (Changes.outside same pending).trans (.answer _ _ (by rw [same.replies]; exact slot))

/-- A command that only answers. -/
theorem CarriesOut.answers (body : Frame → State → ReplyBody) : CarriesOut fun f s => s.answer f (body f s) :=
  CarriesOut.configures (write := fun _ s => s) fun _ s => ⟨SameStore.refl s, rfl⟩

theorem State.defineProbe_changes (i : Fin 32) : CarriesOut fun f => State.defineProbe f i := by
  intro f s slot _
  unfold State.defineProbe
  dsimp only
  split
  · exact .answer _ _ slot
  case isFalse free =>
    split
    · exact .answer _ _ slot
    case h_2 d checked =>
      split
      · exact .answer _ _ slot
      case isFalse room =>
        exact (Changes.single (.probes (.defined (not_not.1 free) checked (Nat.not_lt.1 room)))).thenAnswer slot

theorem State.armProbe_changes (i : Fin 32) : CarriesOut fun f => State.armProbe f i := by
  intro f s slot _
  unfold State.armProbe
  dsimp only
  split
  case h_1 d state defn =>
    exact (Changes.single (.probes (.armed state defn (by split <;> simp_all)))).thenAnswer slot
  · exact .answer _ _ slot

theorem State.disarmProbe_changes (i : Fin 32) : CarriesOut fun f => State.disarmProbe f i := by
  intro f s slot _
  unfold State.disarmProbe
  dsimp only
  split
  case isTrue state => exact (Changes.single (.probes (.disarmed state))).thenAnswer slot
  · exact .answer _ _ slot

theorem State.deleteProbe_changes (i : Fin 32) : CarriesOut fun f => State.deleteProbe f i := by
  intro f s slot _
  unfold State.deleteProbe
  dsimp only
  split
  · exact .answer _ _ slot
  case isFalse state =>
    refine ((Changes.single (.probes (.deleted state))).thenAnswer slot).trans
      (.single (.parked (.measuresFixed _ fun x hx => ?_)))
    have hkept := (List.mem_filter.1 hx).2
    simp only [Bool.not_or, Bool.and_eq_true, Bool.not_eq_true'] at hkept
    exact hkept.2

theorem State.limitProbe_changes (i : Fin 32) : CarriesOut fun f => State.limitProbe f i := by
  intro f s slot _
  unfold State.limitProbe
  dsimp only
  split
  · exact .answer _ _ slot
  · exact .answer _ _ slot
  case h_3 d defn state =>
    split
    · exact .answer _ _ slot
    case isFalse style =>
      split
      · exact .answer _ _ slot
      case h_2 window checked =>
        exact (Changes.single (.probes (.limited state defn style checked))).thenAnswer slot

theorem State.readRing_changes (i : Fin 32) : CarriesOut fun f => State.readRing f i := by
  intro f s slot _
  unfold State.readRing
  dsimp only
  split
  · exact .answer _ _ slot
  · exact .answer _ _ slot
  · split
    · exact .answer _ _ slot
    case h_2 skip count drain _ =>
      cases drain
      · exact .answer _ _ slot
      · exact (Changes.single (.probes (.drained _ _))).thenAnswer slot

theorem State.measureProbe_changes (i : Fin 32) : CarriesOut fun f => State.measureProbe f i := by
  intro f s slot fresh
  unfold State.measureProbe
  dsimp only
  split
  · exact .answer _ _ slot
  split
  · exact .answer _ _ slot
  case isFalse alone =>
    split
    · exact .answer _ _ slot
    case isFalse room =>
      exact .single (.parked (.measureParked fresh (Bool.not_eq_true _ ▸ alone) (Nat.not_le.1 room)))

theorem State.runScheduler_changes : CarriesOut State.runScheduler := by
  intro f s slot _
  unfold State.runScheduler
  split
  case h_1 stopped =>
    exact (Changes.single (.probes (.aligned (by simp [stopped])))).thenAnswer slot
  case h_2 => exact .answer _ _ slot
  case h_3 draining =>
    exact ((Changes.single (.probes (.aligned (by simp [draining])))).thenAnswer slot).trans
      (.single (.parked (.pausesFixed _)))

theorem State.pauseScheduler_changes : CarriesOut State.pauseScheduler := by
  intro f s slot fresh
  unfold State.pauseScheduler
  dsimp only
  split
  case h_1 => exact .answer _ _ slot
  case h_2 =>
    split
    · exact .answer _ _ slot
    case isFalse room => exact .single (.parked (.pauseParked fresh (Nat.not_le.1 room)))
  case h_3 running =>
    split
    case isTrue => exact (Changes.single (.probes (.stopped running))).thenAnswer slot
    case isFalse flight =>
      split
      · exact .answer _ _ slot
      case isFalse room =>
        exact (Changes.single (.probes (.draining running (by simpa using flight)))).trans
          (.single (.parked (.pauseParked fresh (Nat.not_le.1 room))))

theorem State.acknowledge_changes : CarriesOut State.acknowledge := by
  intro f s slot _
  exact (Changes.single (.notices (.acknowledged (halves f.payload)))).trans (.answer f _ slot)

theorem State.replaceHold_changes : CarriesOut State.replaceHold := by
  intro f s slot _
  unfold State.replaceHold
  split
  · exact .thenAnswer (.outside (by constructor <;> rfl) rfl) slot
  · exact .answer _ _ slot

theorem State.configureLink_changes : CarriesOut State.configureLink := by
  intro f s slot _
  unfold State.configureLink
  dsimp only
  split
  · exact .answer _ _ slot
  · exact .thenAnswer (.outside (by constructor <;> rfl) rfl) slot

theorem State.configureCheck_changes : CarriesOut State.configureCheck :=
  CarriesOut.configures fun _ _ => ⟨by constructor <;> rfl, rfl⟩

theorem State.readCounters_changes : CarriesOut State.readCounters := by
  intro f s slot _
  unfold State.readCounters
  split
  case h_1 clear _ =>
    cases clear
    · exact .answer _ _ slot
    · exact .thenAnswer (.outside (by constructor <;> rfl) rfl) slot
  · exact .answer _ _ slot

theorem State.loadTime_changes : CarriesOut State.loadTime := by
  intro f s slot _
  unfold State.loadTime
  split
  · exact .thenAnswer (.outside (by constructor <;> rfl) rfl) slot
  · exact .answer _ _ slot

/-! ### The engine -/

/-- The drain completion after the end of a scheduled operation: the scheduler's change is the engine's, the answers are the
parked list's. -/
theorem State.completeDrain_changes {s u : State} (h : Changes s { u with scheduler := u.scheduler.drained }) :
    Changes s u.completeDrain := by
  unfold State.completeDrain
  split
  case isTrue draining =>
    rw [draining] at h
    exact h.trans (.single (.parked (.pausesFixed _)))
  case isFalse other =>
    have hsame : u.scheduler.drained = u.scheduler := by cases hs : u.scheduler <;> simp_all [SchedulerState.drained]
    rwa [hsame] at h

theorem State.quiesce_changes (s : State) : Changes s s.quiesce := by
  unfold State.quiesce
  dsimp only
  split
  case h_1 op flight =>
    refine Changes.trans ?_ (.submit _ _)
    obtain ⟨e | e, op, channel⟩ := op
    · exact State.completeDrain_changes (.single (.engine (.ended flight (.inr rfl))))
    · simp only [State.abandon]
      split
      case isTrue awaited => exact .single (.engine (.shotReturned flight awaited))
      case isFalse => exact .single (.engine (.shotDiscarded flight))
  case h_2 idle => exact (Changes.single (.engine (.quiesced idle))).trans (.submit _ _)
  case h_3 => exact .refl s

theorem State.unquiesce_changes (s : State) : Changes s s.unquiesce := by
  unfold State.unquiesce
  split
  case h_1 quiesced => exact (Changes.single (.engine (.released quiesced))).trans (.submit _ _)
  · exact .refl s
  · exact .refl s

theorem State.takeEntry_changes (s : State) : Changes s s.takeEntry := by
  unfold State.takeEntry
  split
  case h_1 x rest idle front =>
    split
    case h_1 d defn => exact .single (.engine (.took _ idle front defn))
    · exact .refl s
  · exact .refl s

theorem State.endGate1_changes (level : Level) (s : State) : Changes s (s.endGate1 level) := by
  unfold State.endGate1
  split
  case h_1 flight => exact .single (.engine (.gated _ flight))
  · exact .refl s

theorem State.completeScheduled_changes (level : Level) (s : State) : Changes s (s.completeScheduled level) := by
  unfold State.completeScheduled
  split
  case h_2 => exact .refl s
  case h_1 e op channel flight =>
    split
    case h_2 => exact .refl s
    case h_1 r _ =>
      refine State.completeDrain_changes ?_
      split
      case h_2 => exact .single (.engine (.ended flight (.inl rfl)))
      case h_1 d counts =>
        refine (Changes.single (.engine (.counted r flight counts))).trans ?_
        rw [State.countRun_eq, State.foldl_submit_scheduler, State.reschedule_foldl_submit]
        exact .foldl_submit _ _

theorem State.completeOneShot_changes (level : Level) (s : State) : Changes s (s.completeOneShot level) := by
  unfold State.completeOneShot
  split
  case h_1 flight => exact .single (.parked (.shotAnswered _ flight))
  · exact .refl s

/-! ### The link -/

theorem State.arrive_changes (s : State) (b : Byte) : Changes s (s.arrive b) := by
  unfold State.arrive State.headerByte State.bodyByte State.endFrame
  dsimp only
  split
  · exact .outside (by constructor <;> rfl) rfl
  · split
    · split <;> exact .outside (by constructor <;> rfl) rfl
    · exact .outside (by constructor <;> rfl) rfl
    · exact .outside (by constructor <;> rfl) rfl
  · split
    · split <;> exact .outside (by constructor <;> rfl) rfl
    · exact .outside (by constructor <;> rfl) rfl

theorem State.endCharacter_changes (c : Character) (s : State) : Changes s (s.endCharacter c) := by
  unfold State.endCharacter
  split
  · exact .refl s
  split
  · have sampled : Changes s { s with rxdHigh := true } := .outside (by constructor <;> rfl) rfl
    exact sampled.trans (State.arrive_changes _ _)
  · exact .outside (by constructor <;> rfl) rfl

theorem State.linkReset_changes (s : State) : Changes s s.linkReset :=
  (Changes.single (.queues .emptied)).trans ((Changes.single (.parked .unlinked)).trans
    ((Changes.single (.notices .restarted)).trans (.outside (by constructor <;> rfl) rfl)))

theorem State.detectBreak_changes (s : State) : Changes s s.detectBreak := by
  unfold State.detectBreak
  split
  · exact .refl s
  · exact s.linkReset_changes

theorem State.endBreak_changes (s : State) : Changes s s.endBreak := by
  unfold State.endBreak
  split <;> exact .outside (by constructor <;> rfl) rfl

theorem State.startReply_changes (s : State) : Changes s s.startReply := by
  unfold State.startReply
  split
  case h_1 front =>
    exact (Changes.single (.queues (.sent front))).trans (.outside (by constructor <;> rfl) rfl)
  · exact .refl s

theorem State.softReset_changes (s : State) : Changes s s.softReset :=
  .single (.reset ⟨rfl, fun i => by simp [State.probe, State.softReset, State.afterReset], rfl, rfl,
    by cases h : s.quiesceLine <;> simp [State.softReset, State.afterReset, h], .inr ⟨_, _, rfl⟩, rfl, rfl, rfl, rfl, rfl⟩ rfl)

theorem State.completeTransmission_changes (s : State) : Changes s s.completeTransmission := by
  unfold State.completeTransmission
  split
  · exact s.softReset_changes
  · exact .outside (by constructor <;> rfl) rfl
  · exact .refl s
  · exact .refl s

/-! ### Ticks and resets -/

theorem State.advanceTick_changes (s : State) : Changes s s.advanceTick := .outside (by constructor <;> rfl) rfl

theorem State.crystalPeriod_changes (s : State) : Changes s s.crystalPeriod := by
  unfold State.crystalPeriod
  split
  · exact s.advanceTick_changes
  · exact .outside (by constructor <;> rfl) rfl

theorem State.resetEvent_changes (s : State) (cause : ResetCause) (event : ResetEvent) :
    Changes s (s.resetEvent cause event) := by
  have mark : ∀ (u : State) (b : Bool), Changes u (u.markReset b cause) := fun u b =>
    .outside (by constructor <;> simp) (by simp)
  cases event with
  | begins =>
    refine Changes.trans ?_ (mark _ true)
    exact .single (.reset ⟨rfl, fun i => by simp [State.probe, State.enterReset, State.afterReset], rfl, rfl,
      by cases h : s.quiesceLine <;> simp [State.enterReset, State.afterReset, h], .inl rfl, rfl, rfl, rfl, rfl, rfl⟩ rfl)
  | ends pins =>
    refine Changes.trans ?_ (mark _ false)
    exact .single (.reset ⟨rfl, fun i => by simp [State.probe, State.hardReset, State.afterReset], rfl, rfl,
      by cases h : pins.quiesce <;> simp [State.hardReset, State.afterReset, h], .inr ⟨_, _, rfl⟩, rfl, rfl, rfl, rfl, rfl⟩
      rfl)

/-! ### Every command and every step -/

/-- Every command answers a next state, which changes lead to. -/
theorem exec_changes (c : Instr) (s : State) : ∃ t, exec c s = .next t ∧ Changes s t := by
  cases c with
  | powerReset event => exact ⟨_, rfl, s.resetEvent_changes .power event⟩
  | pinReset event => exact ⟨_, rfl, s.resetEvent_changes .pin event⟩
  | tick => exact ⟨_, rfl, State.act_changes State.advanceTick_changes s⟩
  | dueCheck => exact ⟨_, rfl, State.unlessReset_changes State.runDueCheck_changes s⟩
  | noticeTimeout => exact ⟨_, rfl, State.unlessReset_changes State.runTimeouts_changes s⟩
  | gapError => exact ⟨_, rfl, State.unlessReset_changes State.runGap_changes s⟩
  | receipt => exact ⟨_, rfl, State.unlessReset_changes State.runReceipt_changes s⟩
  | breakDetected => exact ⟨_, rfl, State.act_changes State.detectBreak_changes s⟩
  | endOfBreak => exact ⟨_, rfl, State.act_changes State.endBreak_changes s⟩
  | quiesceAsserted => exact ⟨_, rfl, State.act_changes State.quiesce_changes s⟩
  | quiesceReleased => exact ⟨_, rfl, State.act_changes State.unquiesce_changes s⟩
  | take => exact ⟨_, rfl, State.act_changes State.takeEntry_changes s⟩
  | gate1End level => exact ⟨_, rfl, State.act_changes (State.endGate1_changes level) s⟩
  | scheduledCompletion level => exact ⟨_, rfl, State.act_changes (State.completeScheduled_changes level) s⟩
  | oneShotCompletion level => exact ⟨_, rfl, State.act_changes (State.completeOneShot_changes level) s⟩
  | parkedReplyQueued => exact ⟨_, rfl, State.act_changes (fun _ => .single (.parked .outcomeQueued)) s⟩
  | replyTransmissionStart => exact ⟨_, rfl, State.act_changes State.startReply_changes s⟩
  | noticeTransmissionStart => exact ⟨_, rfl, State.act_changes (fun _ => .single (.notices .started)) s⟩
  | transmissionCompletion => exact ⟨_, rfl, State.act_changes State.completeTransmission_changes s⟩
  | hello => exact ⟨_, rfl, State.serve_changes (CarriesOut.answers fun _ t => .hello t.report) s⟩
  | define => exact ⟨_, rfl, State.serve_changes (.onProbe State.defineProbe_changes) s⟩
  | arm => exact ⟨_, rfl, State.serve_changes (.onProbe State.armProbe_changes) s⟩
  | disarm => exact ⟨_, rfl, State.serve_changes (.onProbe State.disarmProbe_changes) s⟩
  | delete => exact ⟨_, rfl, State.serve_changes (.onProbe State.deleteProbe_changes) s⟩
  | setLimits => exact ⟨_, rfl, State.serve_changes (.onProbe State.limitProbe_changes) s⟩
  | readProbe =>
    exact ⟨_, rfl, State.serve_changes (.onProbe fun i => CarriesOut.answers fun _ t => .probe (t.probe i)) s⟩
  | measure => exact ⟨_, rfl, State.serve_changes (.onProbe State.measureProbe_changes) s⟩
  | run => exact ⟨_, rfl, State.serve_changes State.runScheduler_changes s⟩
  | pause => exact ⟨_, rfl, State.serve_changes State.pauseScheduler_changes s⟩
  | setTime => exact ⟨_, rfl, State.serve_changes State.loadTime_changes s⟩
  | readTime => exact ⟨_, rfl, State.serve_changes (CarriesOut.answers fun _ t => .time t.counter t.scheduler) s⟩
  | readHistory => exact ⟨_, rfl, State.serve_changes (.onProbe State.readRing_changes) s⟩
  | ack => exact ⟨_, rfl, State.serve_changes State.acknowledge_changes s⟩
  | hold => exact ⟨_, rfl, State.serve_changes State.replaceHold_changes s⟩
  | linkConfig => exact ⟨_, rfl, State.serve_changes State.configureLink_changes s⟩
  | checkConfig => exact ⟨_, rfl, State.serve_changes State.configureCheck_changes s⟩
  | readCounters => exact ⟨_, rfl, State.serve_changes State.readCounters_changes s⟩
  | softReset =>
    exact ⟨_, rfl, State.serve_changes (CarriesOut.configures (write := fun _ t => { t with softResetPending := true })
      (body := fun _ _ => .softReset) fun _ _ => ⟨by constructor <;> rfl, rfl⟩) s⟩
  | byteArrival data stopHigh =>
    exact ⟨_, rfl, State.act_changes (State.endCharacter_changes ⟨data, stopHigh⟩) s⟩

/-- A step makes changes, once its command has left the queue. -/
theorem step_changes {s t : State} (h : step s = .next t) : Changes { s with pending := s.pending.tail } t := by
  unfold step at h
  split at h
  case h_1 empty =>
    obtain rfl := Host.Outcome.next.inj h
    have hs : ({ s with pending := s.pending.tail } : State) = s := by rw [empty, List.tail_nil, ← empty]
    rw [hs]
    exact State.act_changes State.crystalPeriod_changes s
  case h_2 c rest front =>
    obtain ⟨u, hu, hchanges⟩ := exec_changes c { s with pending := rest }
    rw [hu] at h
    obtain rfl := Host.Outcome.next.inj h
    rwa [front]

/-- A law that speaks of the store alone and that every change keeps is kept by every step. -/
theorem step_keeps {P : State → Prop} (same : ∀ s t, SameStore s t → P s → P t) (hP : ∀ s t, Change s t → P s → P t)
    {s t : State} (hs : P s) (h : step s = .next t) : P t :=
  (step_changes h).keep hP (same _ _ (by constructor <;> rfl) hs)

/-- Settles O3: a command comes to changes, none of which touches the queue. -/
theorem everyCommandAnswersAndKeepsTheQueue : Obligations.EveryCommandAnswersAndKeepsTheQueue := by
  intro c s
  obtain ⟨t, ht, hchanges⟩ := exec_changes c s
  exact ⟨t, ht, hchanges.pending⟩

/-- Settles O1: `step` by its definition. -/
theorem stepRunsTheFrontCommand : Obligations.StepRunsTheFrontCommand := by
  intro c s rest front
  simp only [step, front]

end Sys2Proof.Machine
end

section
/-! PROOFS. Every step keeps the pool of slots balanced (R94). -/

namespace Sys2Proof.Machine

/-! ### What the changes of a record leave of it -/

/-- Of a probe given a record, the sum of the depths changes by that record's alone. -/
theorem sum_depth_setProbe (s : State) (i : Fin 32) (q : Probe) :
    ((List.finRange 32).map fun j => ((s.setProbe i q).probe j).depth).sum + (s.probe i).depth =
      ((List.finRange 32).map fun j => (s.probe j).depth).sum + q.depth := by
  have hrest : ∑ j ∈ Finset.univ.erase i, ((s.setProbe i q).probe j).depth =
      ∑ j ∈ Finset.univ.erase i, (s.probe j).depth :=
    Finset.sum_congr rfl fun j hj => by rw [State.probe_setProbe_ne s q (Finset.ne_of_mem_erase hj)]
  rw [← Fin.sum_univ_def, ← Fin.sum_univ_def, ← Finset.sum_erase_add _ _ (Finset.mem_univ i),
    ← Finset.sum_erase_add Finset.univ (fun j => (s.probe j).depth) (Finset.mem_univ i), hrest,
    State.probe_setProbe_same]
  omega

@[simp] theorem Probe.withRecord_defn (q : Probe) (d : Definition) (h : HistoryRecord) :
    (q.withRecord d h).defn = q.defn := rfl
@[simp] theorem Probe.withRecord_state (q : Probe) (d : Definition) (h : HistoryRecord) :
    (q.withRecord d h).state = q.state := rfl
@[simp] theorem Probe.withRecord_nextDue (q : Probe) (d : Definition) (h : HistoryRecord) :
    (q.withRecord d h).nextDue = q.nextDue := rfl
@[simp] theorem Probe.withRecord_generation (q : Probe) (d : Definition) (h : HistoryRecord) :
    (q.withRecord d h).generation = q.generation := rfl

/-- A counted run changes neither state, definition, generation nor next due of the record. -/
theorem State.probeAfter_kept (s : State) (e : ScheduledEntry) (d : Definition) (r : RunResult) :
    (s.probeAfter e d r).state = (s.probe e.probe).state ∧ (s.probeAfter e d r).defn = (s.probe e.probe).defn ∧
      (s.probeAfter e d r).generation = (s.probe e.probe).generation ∧
      (s.probeAfter e d r).nextDue = (s.probe e.probe).nextDue := by
  simp [State.probeAfter]

/-- An alignment changes the next due alone (R27). -/
theorem Probe.aligned_frame (c : Tick) (p : Probe) : p.aligned c = { p with nextDue := (p.aligned c).nextDue } := by
  unfold Probe.aligned
  split <;> rfl

@[simp] theorem State.enterRunning_probe (s : State) (i : Fin 32) :
    s.enterRunning.probe i = (s.probe i).aligned s.counter := State.probe_mapProbes _ _ i

@[simp] theorem State.leaveRunning_probe (s : State) (next : SchedulerState) (i : Fin 32) :
    (s.leaveRunning next).probe i = { s.probe i with nextDue := none } := State.probe_mapProbes _ _ i

/-! ### The law -/

namespace State.PoolBalanced

/-- A record may be replaced where the free count takes up the difference of the depths. -/
theorem setProbe {s : State} (h : s.PoolBalanced) {i : Fin 32} {q : Probe} {n : Nat}
    (hq : q.state = .free ↔ q.defn = none) (hn : n + q.depth = s.freeCount + (s.probe i).depth) :
    ({ s.setProbe i q with freeCount := n } : State).PoolBalanced := by
  obtain ⟨hfree, hsum⟩ := h
  constructor
  · intro j
    have hj : ({ s.setProbe i q with freeCount := n } : State).probe j = if j = i then q else s.probe j :=
      State.probe_setProbe s i j q
    rw [hj]
    split
    · exact hq
    · exact hfree j
  · have := sum_depth_setProbe s i q
    change n + ((List.finRange 32).map fun j => ((s.setProbe i q).probe j).depth).sum = 512
    omega

/-- A record may be replaced by one of the same definition where neither is FREE. -/
theorem rewrite {s : State} (h : s.PoolBalanced) {i : Fin 32} {q : Probe} (hq : q.state = .free ↔ q.defn = none)
    (hd : q.depth = (s.probe i).depth) : (s.setProbe i q).PoolBalanced :=
  h.setProbe (n := s.freeCount) hq (by rw [hd])

/-- The law speaks of the definitions, the states and the free count alone. -/
theorem congr {s t : State} (h : s.PoolBalanced) (hf : t.freeCount = s.freeCount)
    (hp : ∀ i, (t.probe i).state = (s.probe i).state ∧ (t.probe i).defn = (s.probe i).defn) : t.PoolBalanced := by
  obtain ⟨hfree, hsum⟩ := h
  have hdepth : ∀ i, (t.probe i).depth = (s.probe i).depth := fun i => by simp only [Probe.depth, (hp i).2]
  refine ⟨fun i => by rw [(hp i).1, (hp i).2]; exact hfree i, ?_⟩
  simp only [hf, hdepth]
  exact hsum

theorem same {s t : State} (hst : SameStore s t) (h : s.PoolBalanced) : t.PoolBalanced :=
  h.congr hst.freeCount fun i => by simp [hst.probe i]

theorem reset {t : State} (h : ResetStore t) : t.PoolBalanced := by
  refine ⟨fun i => by simp [h.probe i, Probe.cleared], ?_⟩
  simp [h.probe, h.freeCount, Probe.depth, Probe.cleared]

theorem engineChange {s t : State} (hst : EngineChange s t) (h : s.PoolBalanced) : t.PoolBalanced := by
  cases hst with
  | @counted e _ _ d r =>
    obtain ⟨hstate, hdefn, -, -⟩ := s.probeAfter_kept e d r
    exact h.rewrite (i := e.probe) (by rw [hstate, hdefn]; exact h.1 _) (by simp only [Probe.depth, hdefn])
  | took | gated | ended | shotDiscarded | shotReturned | quiesced | released => exact h

theorem probeChange {s t : State} (hst : ProbeChange s t) (h : s.PoolBalanced) : t.PoolBalanced := by
  have hdefined : ∀ {i : Fin 32} {d : Definition}, (s.probe i).defn = some d → (s.probe i).state ≠ .free :=
    fun hd hs => by simp [(h.1 _).1 hs] at hd
  cases hst with
  | @defined f i d free checked room =>
    have hnone := (h.1 i).1 free
    exact h.setProbe (by simp [Probe.define]) (by simp [Probe.depth, Probe.define, hnone]; omega)
  | armed state defn => exact h.rewrite (by simp [Probe.arm, defn]) rfl
  | @disarmed i state =>
    have : (s.probe i).defn ≠ none := fun hnone => by simp [(h.1 i).2 hnone] at state
    exact h.rewrite (i := i) (by simpa using this) rfl
  | @limited f i d window state defn =>
    exact h.rewrite (i := i) (by simp [Probe.limit, state]) (by simp [Probe.depth, Probe.limit, defn])
  | @drained i d skip k => exact h.rewrite (i := i) (h.1 i) rfl
  | @deleted i => exact h.setProbe (i := i) (by simp [Probe.cleared]) rfl
  | aligned =>
    exact h.congr rfl fun i => by rw [State.enterRunning_probe, Probe.aligned_frame]; exact ⟨rfl, rfl⟩
  | stopped | draining => exact h.congr rfl fun i => by rw [State.leaveRunning_probe]; exact ⟨rfl, rfl⟩
  | @overran i => exact h.rewrite (i := i) (h.1 i) rfl
  | @cameDue i => exact h.rewrite (i := i) (h.1 i) rfl

end State.PoolBalanced

/-- The law of the pool is kept by every change. -/
theorem Change.keeps_poolBalanced {s t : State} (hst : Change s t) (h : s.PoolBalanced) : t.PoolBalanced := by
  cases hst with
  | outside hst => exact h.same hst
  | reset hst => exact .reset hst
  | notices hst => exact (h.same hst.same.1 :)
  | queues hst => exact (h.same hst.same.1 :)
  | parked hst => exact (h.same hst.same.1 :)
  | engine hst => exact h.engineChange hst
  | probes hst => exact h.probeChange hst

/-- Settles O53: DEFINE takes from the free count the depth it gives the record, DELETE returns it, and no other change touches a
depth. -/
theorem stepKeepsThePoolBalanced : Obligations.StepKeepsThePoolBalanced := fun _ _ hs h =>
  step_keeps (fun _ _ hst hs => hs.same hst) (fun _ _ hst hs => hst.keeps_poolBalanced hs) hs h

end Sys2Proof.Machine
end

section
/-! PROOFS. Every step keeps the laws of the notice queue: sequence numbers and QUEUED keys stay distinct (R111, R114, R122), and
retries stay at 4 or less, and 4 only in MUTE (R139). -/

namespace Sys2Proof.Machine

/-! ### What the laws see of a notice -/

/-- Sequence number, retries, delivery state and key of a notice. -/
def Notice.digest (n : Notice) : Half × Nat × Delivery × Option (NoticeClass × Fin 32 × Byte) :=
  (n.seq, n.retries, n.delivery, n.content.key?)

theorem Notice.isQueued_iff {n : Notice} : n.isQueued = true ↔ n.delivery = .queued := by simp [Notice.isQueued]

theorem map_seq_digest (l : List Notice) : l.map Notice.seq = (l.map Notice.digest).map Prod.fst := by
  simp [Notice.digest]

theorem uniqueKeys_iff_digest {l : List Notice} :
    UniqueKeys l ↔ (l.map Notice.digest).Pairwise fun a b =>
      a.2.2.1 = .queued → b.2.2.1 = .queued → a.2.2.2 = b.2.2.2 → a.2.2.2 = none := by
  rw [List.pairwise_map]; rfl

/-- Every notice of `l` is one of `m` to the laws, in its order. -/
def Digests (l m : List Notice) : Prop := (l.map Notice.digest).Sublist (m.map Notice.digest)

namespace Digests

variable {l m : List Notice}

theorem of_sublist (h : l.Sublist m) : Digests l m := h.map _

theorem length_le (h : Digests l m) : l.length ≤ m.length := by simpa using List.Sublist.length_le h

theorem seq_nodup (h : Digests l m) (hm : (m.map Notice.seq).Nodup) : (l.map Notice.seq).Nodup := by
  rw [map_seq_digest] at hm ⊢
  exact hm.sublist (h.map _)

theorem uniqueKeys (h : Digests l m) (hm : UniqueKeys m) : UniqueKeys l :=
  uniqueKeys_iff_digest.2 ((uniqueKeys_iff_digest.1 hm).sublist h)

/-- What holds of retries and delivery state of every notice still holds. -/
theorem forall_mem {P : Nat → Delivery → Prop} (h : Digests l m) (hm : ∀ n ∈ m, P n.retries n.delivery) :
    ∀ n ∈ l, P n.retries n.delivery := by
  intro n hn
  obtain ⟨n', hn', hd⟩ := List.mem_map.1 (h.subset (List.mem_map_of_mem hn))
  obtain ⟨-, hr, hq, -⟩ : n'.seq = n.seq ∧ n'.retries = n.retries ∧ n'.delivery = n.delivery ∧ _ := by
    simpa [Notice.digest] using hd
  rw [← hr, ← hq]
  exact hm n' hn'

/-- No more notices are SENT. -/
theorem countP_isSent_le (h : Digests l m) : l.countP Notice.isSent ≤ m.countP Notice.isSent := by
  have hsent : ∀ k : List Notice, k.countP Notice.isSent = (k.map Notice.digest).countP fun x => x.2.2.1 != .queued := by
    intro k
    rw [List.countP_map]
    exact congrArg (List.countP · k) (funext fun n => rfl)
  rw [hsent, hsent]
  exact List.Sublist.countP_le h

end Digests

/-! ### What a submission does to the queue -/

/-- A QUEUED notice brought up to date is to the laws what it was. -/
theorem State.coalesceNotice_digests (s : State) (c : NoticeContent) :
    (s.coalesceNotice c).notices.map Notice.digest = s.notices.map Notice.digest := by
  unfold State.coalesceNotice
  split
  case h_1 key hkey =>
    refine map_updateFirst Notice.digest (fun n hn => ?_) _
    have hk : n.content.key? = c.key? := (Notice.isTarget_iff.1 hn).2.trans hkey.symm
    simp [Notice.digest, Notice.coalesce, hk]
  case h_2 => rfl

/-- A submission leaves no more than stood in the queue, or adds to a part of it one QUEUED notice of retries 0, with a number
and, if QUEUED notices of its class coalesce, a key that the queue does not hold; at most 24 notices then stand. -/
theorem State.submit_notices (s : State) (c : NoticeContent) :
    Digests (s.submit c).notices s.notices ∨
      ∃ kept n, (s.submit c).notices = kept ++ [n] ∧ kept.Sublist s.notices ∧ n.delivery = .queued ∧ n.retries = 0 ∧
        (kept.length < 65536 → n.seq ∉ kept.map Notice.seq) ∧
        (∀ m ∈ s.notices, m.delivery = .queued → m.content.key? = n.content.key? → m.content.key? = none) ∧
        (s.notices.length ≤ 24 → kept.length < 24) := by
  have nokey : s.hasTarget c = false →
      ∀ m ∈ s.notices, m.delivery = .queued → m.content.key? = c.key? → m.content.key? = none := by
    intro hno m hm hq hk
    by_contra hne
    obtain ⟨key, hkey⟩ := Option.ne_none_iff_exists'.1 (hk ▸ hne)
    rw [State.hasTarget, hkey, List.any_eq_false] at hno
    exact hno m hm (Notice.isTarget_iff.2 ⟨hq, hk.trans hkey⟩)
  obtain ⟨-, h⟩ | ⟨hno, hroom, h⟩ | ⟨hno, hfull, -, hevict, h⟩ | ⟨-, -, -, h⟩ := s.submit_cases c
  · left
    rw [h, Digests, s.coalesceNotice_digests]
  · right
    refine ⟨s.notices, _, by rw [h]; rfl, List.Sublist.refl _, rfl, rfl, ?_, nokey hno, fun _ => hroom⟩
    exact fun hlen => s.assignSeq_not_mem hlen
  · right
    refine ⟨s.evict.notices, _, by rw [h]; rfl, eraseLast_sublist _ _, rfl, rfl, ?_, nokey hno, fun hlen => ?_⟩
    · exact fun hlen => s.evict.assignSeq_not_mem hlen
    · have := length_eraseLast hevict
      simp only [State.evict, State.countLoss]
      omega
  · left
    rw [h]
    exact Digests.of_sublist (List.Sublist.refl _)

/-! ### What the other changes do to the queue -/

theorem mergeQueued_digests (l : List Notice) : Digests (mergeQueued l) l := mergeQueued_sublist l

/-- An acknowledgement only removes notices (R135). -/
theorem foldl_ackOne_sublist (numbers : List Half) (acc : List Notice × Nat × Nat) :
    (numbers.foldl ackOne acc).1.Sublist acc.1 := by
  induction numbers generalizing acc with
  | nil => exact List.Sublist.refl _
  | cons n numbers ih =>
    refine (ih _).trans ?_
    unfold ackOne
    dsimp only
    split
    · exact List.eraseP_sublist
    · exact List.Sublist.refl _

/-- A start changes nothing, or makes one QUEUED notice SENT with MUTE clear and fewer than four SENT (R132, R133). -/
theorem State.startNotice_cases (s : State) :
    s.startNotice = s ∨ ∃ before n after, s.notices = before ++ n :: after ∧ n.delivery = .queued ∧ s.mute = false ∧
      s.sentCount < 4 ∧ s.startNotice = { s with
        notices := before ++ { n with delivery := .sent s.counter } :: after
        transmitter := .sending (.notice n) } := by
  by_cases hmay : s.mayStartNotice = true
  · by_cases hany : s.notices.any (Notice.sendable s.holdSet) = true
    · obtain ⟨before, n, after, hsplit, hn, hbefore⟩ := exists_first hany
      obtain ⟨hmute, hsent, -, -⟩ := State.mayStartNotice_iff.1 hmay
      exact .inr ⟨before, n, after, hsplit, (Notice.sendable_iff.1 hn).1, hmute, hsent,
        State.startNotice_of_eligible hsplit hn (fun m hm => by simp [hbefore m hm]) hmay⟩
    · refine .inl (State.startNotice_of_none_eligible (State.eligible_eq_none_iff.2 fun n hn h => ?_))
      exact hany (List.any_eq_true.2 ⟨n, hn, h⟩)
  · exact .inl (State.startNotice_of_not_may hmay)

/-- The notices after a timeout examination in which some are out, before the merging (R137). -/
def State.reverted (s : State) : List Notice :=
  s.notices.map fun n => if n.timedOut s.counter s.ackTimeout then n.revert else n

/-- A timeout examination changes nothing, or returns the notices that are out, merges, and sets MUTE with one brought to
retries 4 (R137, R139). -/
theorem State.examineTimeouts_cases (s : State) :
    s.examineTimeouts = s ∨ s.examineTimeouts = { s with
      notices := mergeQueued s.reverted
      mute := s.mute || s.notices.any fun n => n.timedOut s.counter s.ackTimeout && n.revert.retries == 4 } := by
  unfold State.examineTimeouts
  dsimp only
  split
  · exact .inr rfl
  · exact .inl rfl

/-- A notice that is out is SENT. -/
theorem Notice.delivery_of_timedOut {n : Notice} {now : Tick} {timeout : Byte} (h : n.timedOut now timeout = true) :
    n.delivery ≠ .queued := by
  intro hq
  simp [Notice.timedOut, hq] at h

/-- The notices of a link reset are to the laws those restarted, and share no key if none did (R143). -/
theorem State.restartedNotices_digests (s : State) :
    Digests s.restartedNotices (s.notices.map Notice.restart) ∧ (UniqueKeys s.notices → UniqueKeys s.restartedNotices) := by
  unfold State.restartedNotices
  dsimp only
  split
  · exact ⟨mergeQueued_digests _, fun _ => mergeQueued_uniqueKeys _⟩
  case isFalse hnone =>
    refine ⟨List.Sublist.refl _, fun h => ?_⟩
    have hq : ∀ n ∈ s.notices, n.restart.delivery = n.delivery ∧ n.restart.content = n.content := fun n hn => by
      have : n.isSent = false := by simpa using fun hs => hnone (List.any_eq_true.2 ⟨n, hn, hs⟩)
      exact ⟨(Notice.isQueued_iff.1 (by simpa [Notice.isSent] using this)).symm, rfl⟩
    refine List.pairwise_map.2 (List.Pairwise.imp_of_mem (fun {a b} ha hb hab => ?_) h)
    rw [(hq a ha).1, (hq b hb).1, (hq a ha).2, (hq b hb).2]
    exact hab

/-! ### Sequence numbers and keys (R111, R114, R122) -/

/-- The law of the notices of a queue. -/
def LawfulQueue (l : List Notice) : Prop := l.length ≤ 24 ∧ (l.map Notice.seq).Nodup ∧ UniqueKeys l

theorem State.noticesLawful_iff {s : State} : s.NoticesLawful ↔ LawfulQueue s.notices := by
  simp only [State.NoticesLawful, LawfulQueue, UniqueKeys, Notice.isQueued_iff]

namespace LawfulQueue

variable {l m : List Notice}

theorem digests (hm : LawfulQueue m) (h : Digests l m) : LawfulQueue l := by
  obtain ⟨hlen, hseq, hkeys⟩ := hm
  exact ⟨h.length_le.trans hlen, h.seq_nodup hseq, h.uniqueKeys hkeys⟩

/-- A list with the numbers of a lawful queue is lawful where it shares no key. -/
theorem of_seq (hm : LawfulQueue m) (hs : l.map Notice.seq = m.map Notice.seq) (hk : UniqueKeys l) : LawfulQueue l := by
  obtain ⟨hlen, hseq, -⟩ := hm
  have : l.length = m.length := by simpa using congrArg List.length hs
  exact ⟨by omega, hs ▸ hseq, hk⟩

theorem submit {s : State} (h : LawfulQueue s.notices) (c : NoticeContent) : LawfulQueue (s.submit c).notices := by
  obtain hd | ⟨kept, n, heq, hsub, hq, -, hfresh, hkey, hroom⟩ := s.submit_notices c
  · exact h.digests hd
  · obtain ⟨hlen, hseq, hkeys⟩ := h.digests (.of_sublist hsub)
    have hlt := hroom h.1
    rw [heq]
    refine ⟨by simp; omega, ?_, ?_⟩
    · rw [List.map_append, List.nodup_append]
      exact ⟨hseq, by simp, fun a ha b hb hab => hfresh (by omega) (by simp_all)⟩
    · refine List.pairwise_append.2 ⟨hkeys, List.pairwise_singleton _ _, fun m hm x hx hmq _ hk => ?_⟩
      obtain rfl := List.mem_singleton.1 hx
      exact hkey m (hsub.subset hm) hmq hk

/-- A QUEUED notice made SENT shares no more keys than before. -/
theorem sent {before after : List Notice} {n : Notice} (h : LawfulQueue (before ++ n :: after)) (stamp : Tick) :
    LawfulQueue (before ++ { n with delivery := .sent stamp } :: after) := by
  refine h.of_seq (by simp) ?_
  obtain ⟨-, -, hkeys⟩ := h
  unfold UniqueKeys at hkeys ⊢
  simp only [List.pairwise_append, List.pairwise_cons, List.mem_cons, forall_eq_or_imp] at hkeys ⊢
  obtain ⟨hb, ⟨-, ha⟩, hx⟩ := hkeys
  exact ⟨hb, ⟨fun _ _ hq => by simp at hq, ha⟩, fun a ham => ⟨fun _ hq => by simp at hq, (hx a ham).2⟩⟩

theorem noticeChange {s t : State} (hst : NoticeChange s t) (h : LawfulQueue s.notices) : LawfulQueue t.notices := by
  cases hst with
  | submitted c => exact h.submit c
  | muteEnded =>
    refine h.of_seq (by simp [State.endMute]) ?_
    exact List.pairwise_map.2 h.2.2
  | examined =>
    obtain e | e := s.examineTimeouts_cases <;> rw [e]
    · exact h
    · have hseq : s.reverted.map Notice.seq = s.notices.map Notice.seq := by
        rw [State.reverted, List.map_map]
        exact List.map_congr_left fun n _ => by by_cases ho : n.timedOut s.counter s.ackTimeout <;> simp [ho, Notice.revert]
      have hd := mergeQueued_digests s.reverted
      exact ⟨hd.length_le.trans (by simpa [State.reverted] using h.1), hd.seq_nodup (hseq ▸ h.2.1), mergeQueued_uniqueKeys _⟩
  | started =>
    obtain e | ⟨before, n, after, hsplit, -, -, -, e⟩ := s.startNotice_cases <;> rw [e]
    · exact h
    · rw [hsplit] at h
      exact h.sent _
  | acknowledged numbers => exact h.digests (.of_sublist (foldl_ackOne_sublist numbers _))
  | restarted =>
    obtain ⟨hd, hk⟩ := s.restartedNotices_digests
    have hseq : (s.notices.map Notice.restart).map Notice.seq = s.notices.map Notice.seq := by
      simp [Notice.restart]
    exact ⟨hd.length_le.trans (by simpa using h.1), hd.seq_nodup (hseq ▸ h.2.1), hk h.2.2⟩

end LawfulQueue

/-- Only a change of the notice queue touches the notices, and a reset leaves STARTUP at most. -/
theorem Change.notices_cases {s t : State} (hst : Change s t) :
    (t.notices = s.notices ∧ t.mute = s.mute) ∨ NoticeChange s t ∨
      (t.mute = false ∧ (t.notices = [] ∨ ∃ cause quiesce, t.notices = [Notice.startup cause quiesce])) := by
  cases hst with
  | outside hst => exact .inl ⟨hst.notices, hst.mute⟩
  | reset hst => exact .inr (.inr ⟨hst.mute, hst.notices⟩)
  | notices hst => exact .inr (.inl hst)
  | queues hst => exact .inl ⟨hst.same.1.notices, hst.same.1.mute⟩
  | parked hst => exact .inl ⟨hst.same.1.notices, hst.same.1.mute⟩
  | engine hst => cases hst <;> exact .inl ⟨rfl, rfl⟩
  | probes hst => cases hst <;> exact .inl ⟨rfl, rfl⟩

theorem Change.keeps_noticesLawful {s t : State} (hst : Change s t) (h : s.NoticesLawful) : t.NoticesLawful := by
  rw [State.noticesLawful_iff] at h ⊢
  obtain ⟨e, -⟩ | hst | ⟨-, e | ⟨cause, quiesce, e⟩⟩ := hst.notices_cases
  · rwa [e]
  · exact h.noticeChange hst
  · rw [e]; exact ⟨by simp, by simp, List.Pairwise.nil⟩
  · rw [e]; exact ⟨by simp, by simp, List.pairwise_singleton _ _⟩

/-- Settles O57: a creation takes a number and a key that no notice then holds, every return to QUEUED is merged, and the other
changes only remove notices or keep number and key. -/
theorem stepKeepsTheNoticeLaw : Obligations.StepKeepsTheNoticeLaw := fun _ _ hs h =>
  step_keeps (fun _ _ hst hs => by rw [State.noticesLawful_iff] at hs ⊢; rwa [hst.notices])
    (fun _ _ hst hs => hst.keeps_noticesLawful hs) hs h

/-! ### Retries (R139) -/

namespace State.RetriesLawful

/-- The law holds of retries 0 whatever MUTE is. -/
theorem of_zero {t : State} (h : ∀ n ∈ t.notices, n.retries = 0) : t.RetriesLawful := fun n hn => by
  simp [h n hn]

/-- The law of one notice, by retries and delivery state. -/
theorem iff_forall {s : State} : s.RetriesLawful ↔
    ∀ n ∈ s.notices, n.retries ≤ 4 ∧ (n.retries = 4 → s.mute = true ∧ n.delivery = .queued) := by
  simp only [State.RetriesLawful, Notice.isQueued_iff]

/-- The law is kept by a part of the notices while MUTE stands. -/
theorem digests {s t : State} (h : s.RetriesLawful) (hd : Digests t.notices s.notices) (hm : t.mute = s.mute) :
    t.RetriesLawful := by
  rw [iff_forall] at h ⊢
  rw [hm]
  exact hd.forall_mem (P := fun retries delivery => retries ≤ 4 ∧ (retries = 4 → s.mute = true ∧ delivery = .queued)) h

theorem examineTimeouts {s : State} (h : s.RetriesLawful) : s.examineTimeouts.RetriesLawful := by
  obtain e | e := s.examineTimeouts_cases <;> rw [e]
  · exact h
  rw [iff_forall] at h ⊢
  let mute := s.mute || s.notices.any fun n => n.timedOut s.counter s.ackTimeout && n.revert.retries == 4
  refine (mergeQueued_digests s.reverted).forall_mem
    (P := fun retries delivery => retries ≤ 4 ∧ (retries = 4 → mute = true ∧ delivery = .queued)) fun x hx => ?_
  obtain ⟨n, hn, rfl⟩ := List.mem_map.1 hx
  obtain ⟨hle, hfour⟩ := h n hn
  by_cases hout : n.timedOut s.counter s.ackTimeout = true
  · simp only [hout, if_true]
    have hlt : n.retries ≠ 4 := fun h4 => Notice.delivery_of_timedOut hout (hfour h4).2
    refine ⟨by simp only [Notice.revert]; omega, fun h4 => ⟨?_, rfl⟩⟩
    simp only [mute, Bool.or_eq_true, List.any_eq_true, Bool.and_eq_true, beq_iff_eq]
    exact .inr ⟨n, hn, hout, h4⟩
  · simp only [hout]
    exact ⟨hle, fun h4 => ⟨by simp [mute, (hfour h4).1], (hfour h4).2⟩⟩

theorem noticeChange {s t : State} (hst : NoticeChange s t) (h : s.RetriesLawful) : t.RetriesLawful := by
  cases hst with
  | submitted c =>
    obtain hd | ⟨kept, n, heq, hsub, -, hzero, -⟩ := s.submit_notices c
    · exact h.digests hd (by simp)
    · intro x hx
      rw [heq] at hx
      obtain hx | hx := List.mem_append.1 hx
      · simpa using h x (hsub.subset hx)
      · obtain rfl := List.mem_singleton.1 hx
        simp [hzero]
  | muteEnded =>
    refine of_zero fun n hn => ?_
    obtain ⟨m, -, rfl⟩ := List.mem_map.1 hn
    rfl
  | examined => exact h.examineTimeouts
  | started =>
    obtain e | ⟨before, n, after, hsplit, -, hmute, -, e⟩ := s.startNotice_cases <;> rw [e]
    · exact h
    · have hlt : ∀ m ∈ s.notices, m.retries < 4 := fun m hm => by
        obtain ⟨hle, hfour⟩ := h m hm
        have : m.retries ≠ 4 := fun h4 => by simp [hmute] at hfour; exact hfour h4
        omega
      intro x hx
      obtain ⟨m, hm, hr⟩ : ∃ m ∈ s.notices, x.retries = m.retries := by
        simp only [List.mem_append, List.mem_cons] at hx
        rw [hsplit]
        obtain hx | rfl | hx := hx
        · exact ⟨x, by simp [hx], rfl⟩
        · exact ⟨n, by simp, rfl⟩
        · exact ⟨x, by simp [hx], rfl⟩
      have := hlt m hm
      exact ⟨by omega, fun h4 => by omega⟩
  | acknowledged numbers => exact h.digests (.of_sublist (foldl_ackOne_sublist numbers _)) rfl
  | restarted =>
    refine of_zero (s.restartedNotices_digests.1.forall_mem (P := fun retries _ => retries = 0) fun n hn => ?_)
    obtain ⟨m, -, rfl⟩ := List.mem_map.1 hn
    rfl

end State.RetriesLawful

theorem Change.keeps_retriesLawful {s t : State} (hst : Change s t) (h : s.RetriesLawful) : t.RetriesLawful := by
  obtain ⟨e, em⟩ | hst | ⟨-, e | ⟨cause, quiesce, e⟩⟩ := hst.notices_cases
  · exact h.digests (e ▸ .of_sublist (List.Sublist.refl _)) em
  · exact h.noticeChange hst
  · exact .of_zero (by simp [e])
  · exact .of_zero (by simp [e, Notice.startup])

/-- Settles O58: a SENT notice has retries 3 at most, for it was sent with MUTE clear or has retries below 4 since; the timeout that
brings one to 4 returns it to QUEUED and sets MUTE. -/
theorem stepKeepsTheRetryLaw : Obligations.StepKeepsTheRetryLaw := fun _ _ hs h =>
  step_keeps (fun _ _ hst hs => State.RetriesLawful.digests hs (hst.notices ▸ .of_sublist (List.Sublist.refl _)) hst.mute)
    (fun _ _ hst hs => hst.keeps_retriesLawful hs) hs h

end Sys2Proof.Machine
end

section
/-! PROOFS. Every step keeps every holding place within its capacity (R96, R111, R132, R160, R163, R166). -/

namespace Sys2Proof.Machine

/-! ### The notice queue -/

/-- At most 24 notices, of which at most four are SENT (R111, R132). -/
def BoundedQueue (l : List Notice) : Prop := l.length ≤ 24 ∧ l.countP Notice.isSent ≤ 4

namespace BoundedQueue

variable {l m : List Notice}

theorem digests (hm : BoundedQueue m) (h : Digests l m) : BoundedQueue l :=
  ⟨h.length_le.trans hm.1, h.countP_isSent_le.trans hm.2⟩

/-- A change that makes no notice SENT keeps the bounds. -/
theorem map {f : Notice → Notice} (hm : BoundedQueue m) (hf : ∀ n ∈ m, (f n).isSent = true → n.isSent = true) :
    BoundedQueue (m.map f) := by
  obtain ⟨hlen, hsent⟩ := hm
  refine ⟨by simpa using hlen, ?_⟩
  rw [List.countP_map]
  exact (List.countP_mono_left hf).trans hsent

theorem noticeChange {s t : State} (hst : NoticeChange s t) (h : BoundedQueue s.notices) : BoundedQueue t.notices := by
  cases hst with
  | submitted c =>
    obtain hd | ⟨kept, n, heq, hsub, hq, -, -, -, hroom⟩ := s.submit_notices c
    · exact h.digests hd
    · obtain ⟨-, hsent⟩ := h.digests (.of_sublist hsub)
      have hn : n.isSent = false := by simp [Notice.isSent, Notice.isQueued, hq]
      have := hroom h.1
      rw [heq]
      exact ⟨by simp; omega, by simpa [List.countP_append, hn] using hsent⟩
  | muteEnded => exact h.map fun _ _ hs => hs
  | examined =>
    obtain e | e := s.examineTimeouts_cases <;> rw [e]
    · exact h
    · refine (h.map fun n _ hs => ?_).digests (mergeQueued_digests s.reverted)
      by_cases ho : n.timedOut s.counter s.ackTimeout = true
      · simp [ho, Notice.revert, Notice.isSent, Notice.isQueued] at hs
      · simpa [ho] using hs
  | started =>
    obtain e | ⟨before, n, after, hsplit, hq, -, hfew, e⟩ := s.startNotice_cases <;> rw [e]
    · exact h
    · have hn : n.isSent = false := by simp [Notice.isSent, Notice.isQueued, hq]
      rw [State.sentCount, hsplit, List.countP_append, List.countP_cons_of_neg (by simp [hn])] at hfew
      refine ⟨by simpa [hsplit] using h.1, ?_⟩
      rw [List.countP_append, List.countP_cons_of_pos (by simp [Notice.isSent, Notice.isQueued])]
      omega
  | acknowledged numbers => exact h.digests (.of_sublist (foldl_ackOne_sublist numbers _))
  | restarted =>
    refine (h.map fun n _ hs => ?_).digests s.restartedNotices_digests.1
    simp [Notice.restart, Notice.isSent, Notice.isQueued] at hs

end BoundedQueue

/-! ### The parked list and the reply queue -/

/-- Fixing outcomes parks nothing and queues a reply only in a free slot (R164). -/
theorem State.fixOutcomes_bounds (s : State) (which : ParkedEntry → Bool) (body : ReplyBody) :
    (s.fixOutcomes which body).parked.length ≤ s.parked.length ∧
      (s.replies.length ≤ 8 → (s.fixOutcomes which body).replies.length ≤ 8) := by
  unfold State.fixOutcomes
  generalize (s.parked.filter fun e => e.awaited && which e) = l
  induction l generalizing s with
  | nil => exact ⟨le_rfl, id⟩
  | cons e l ih =>
    have hone : (State.fixEntry body s e).parked.length ≤ s.parked.length ∧
        (s.replies.length ≤ 8 → (State.fixEntry body s e).replies.length ≤ 8) := by
      unfold State.fixEntry
      split
      case isTrue may =>
        simp only [Bool.and_eq_true, State.replySlot, decide_eq_true_eq, Config.replyCapacity] at may
        obtain ⟨slot, -⟩ := may
        exact ⟨List.length_filter_le _ _, fun _ => by simp [State.unpark]; omega⟩
      case isFalse => exact ⟨by simp [State.markFixed], fun h => h⟩
    obtain ⟨hp, hr⟩ := ih (State.fixEntry body s e)
    exact ⟨hp.trans hone.1, fun h => hr (hone.2 h)⟩

/-- Parked list and reply queue within their capacities. -/
def State.ProcessorBounded (s : State) : Prop := s.parked.length ≤ 4 ∧ s.replies.length ≤ 8

theorem State.ProcessorBounded.parkedChange {s t : State} (hst : ParkedChange s t) (h : s.ProcessorBounded) :
    t.ProcessorBounded := by
  obtain ⟨hp, hr⟩ := h
  have fixed : ∀ (u : State) which body, u.parked.length ≤ 4 → u.replies.length ≤ 8 →
      (u.fixOutcomes which body).ProcessorBounded := fun u which body hp hr =>
    ⟨(u.fixOutcomes_bounds which body).1.trans hp, (u.fixOutcomes_bounds which body).2 hr⟩
  cases hst with
  | pauseParked _ room | measureParked _ _ room => exact ⟨by simp; omega, hr⟩
  | outcomeQueued =>
    unfold State.queueParked
    split
    · split
      case isTrue slot =>
        have : s.replies.length < 8 := of_decide_eq_true slot
        exact ⟨(List.length_filter_le _ _).trans hp, by simp [State.unpark]; omega⟩
      case isFalse => exact ⟨hp, hr⟩
    · exact ⟨hp, hr⟩
  | pausesFixed | measuresFixed | shotAnswered => exact fixed _ _ _ hp hr
  | unlinked => exact ⟨by simp, hr⟩

/-! ### The rings -/

/-- The ring fill is at most the depth (R96). -/
def Probe.RingFits (p : Probe) : Prop := p.ring.length ≤ p.depth

theorem Probe.ringFits_cleared (generation : Byte) : (Probe.cleared generation).RingFits := Nat.zero_le _

/-- A ring may shrink while the definition stays. -/
theorem Probe.RingFits.mono {p q : Probe} (h : p.RingFits) (hd : q.depth = p.depth) (hr : q.ring.length ≤ p.ring.length) :
    q.RingFits := by
  unfold Probe.RingFits at h ⊢
  omega

/-- The append keeps the ring within the depth of the definition that it is appended under (R100). -/
theorem Probe.RingFits.withRecord {q : Probe} {d : Definition} (h : q.RingFits) (hd : q.defn = some d)
    (record : HistoryRecord) : (q.withRecord d record).RingFits := by
  have hfit : q.ring.length ≤ d.depth := by simpa [Probe.RingFits, Probe.depth, hd] using h
  simp only [Probe.RingFits, Probe.depth, Probe.withRecord_defn, hd]
  simp only [Probe.withRecord]
  split
  · exact hfit
  · split
    · simp; omega
    · simp; omega

/-- The counted run's definition is the one that its probe holds (R53). -/
theorem State.countedDefn_eq_some {s : State} {e : ScheduledEntry} {d : Definition} (h : s.countedDefn e = some d) :
    (s.probe e.probe).state = .armed ∧ (s.probe e.probe).generation = e.generation ∧ (s.probe e.probe).defn = some d := by
  unfold State.countedDefn at h
  dsimp only at h
  split at h
  case isTrue hc => exact ⟨hc.1, hc.2, h⟩
  case isFalse => cases h

/-- Every ring fits. -/
def State.RingsFit (s : State) : Prop := ∀ i, (s.probe i).RingFits

namespace State.RingsFit

theorem setProbe {s : State} (h : s.RingsFit) {i : Fin 32} {q : Probe} (hq : q.RingFits) : (s.setProbe i q).RingsFit := by
  intro j
  rw [State.probe_setProbe]
  split
  · exact hq
  · exact h j

theorem engineChange {s t : State} (hst : EngineChange s t) (h : s.RingsFit) : t.RingsFit := by
  cases hst with
  | @counted e _ _ d r _ counts =>
    obtain ⟨-, -, hdefn⟩ := State.countedDefn_eq_some counts
    have hrun : ((s.probe e.probe).afterRun d r).RingFits := (h e.probe).mono (by simp [Probe.depth]) (by simp)
    exact h.setProbe (i := e.probe) (hrun.withRecord (by simpa using hdefn) _)
  | took | gated | ended | shotDiscarded | shotReturned | quiesced | released => exact h

theorem probeChange {s t : State} (hst : ProbeChange s t) (h : s.RingsFit) : t.RingsFit := by
  cases hst with
  | defined => exact h.setProbe (Nat.zero_le _)
  | @armed i | @disarmed i | @overran i | @cameDue i => exact h.setProbe (i := i) ((h i).mono rfl le_rfl)
  | @limited _ i _ _ _ defn =>
    exact h.setProbe (i := i) ((h i).mono (by simp [Probe.depth, Probe.limit, defn]) le_rfl)
  | @drained i d skip k =>
    refine h.setProbe (i := i) ((h i).mono rfl ?_)
    simp only [Probe.drain]
    split
    · exact le_rfl
    · simp
  | deleted => exact h.setProbe (Nat.zero_le _)
  | aligned =>
    intro i
    rw [State.enterRunning_probe, Probe.aligned_frame]
    exact h i
  | stopped | draining =>
    intro i
    rw [State.leaveRunning_probe]
    exact h i

end State.RingsFit

/-! ### The law -/

theorem State.withinCapacity_iff {s : State} :
    s.WithinCapacity ↔ s.inbox.length ≤ 4 ∧ s.ProcessorBounded ∧ BoundedQueue s.notices ∧ s.RingsFit := by
  unfold State.WithinCapacity State.ProcessorBounded BoundedQueue State.RingsFit Probe.RingFits State.sentCount
  tauto

theorem State.WithinCapacity.same {s t : State} (hst : SameStore s t) (h : s.WithinCapacity) : t.WithinCapacity := by
  rw [State.withinCapacity_iff] at h ⊢
  obtain ⟨hi, hp, hn, hr⟩ := h
  exact ⟨hst.inbox ▸ hi, ⟨hst.parked ▸ hp.1, hst.replies ▸ hp.2⟩, hst.notices ▸ hn, fun i => hst.probe i ▸ hr i⟩

theorem Change.keeps_withinCapacity {s t : State} (hst : Change s t) (h : s.WithinCapacity) : t.WithinCapacity := by
  have hs := h
  rw [State.withinCapacity_iff] at h ⊢
  obtain ⟨hi, hp, hn, hr⟩ := h
  cases hst with
  | outside hst => exact State.withinCapacity_iff.1 (.same hst hs)
  | reset hst =>
    refine ⟨by simp [hst.inbox], ⟨by simp [hst.parked], by simp [hst.replies]⟩, ?_, fun i => ?_⟩
    · obtain e | ⟨_, _, e⟩ := hst.notices <;> rw [e]
      · exact ⟨by simp, by simp⟩
      · exact ⟨by simp, by simp [Notice.startup, Notice.isSent, Notice.isQueued]⟩
    · rw [hst.probe i]
      exact Probe.ringFits_cleared 0
  | notices hst =>
    have same := hst.same.1
    exact ⟨(same.inbox :) ▸ hi, ⟨(same.parked :) ▸ hp.1, (same.replies :) ▸ hp.2⟩, hn.noticeChange hst,
      fun i => same.probe i ▸ hr i⟩
  | queues hst =>
    cases hst with
    | placed f room => exact ⟨by simp; omega, hp, hn, hr⟩
    | taken front => exact ⟨by simp [front] at hi ⊢; omega, hp, hn, hr⟩
    | replied r slot => exact ⟨hi, ⟨hp.1, by simp; omega⟩, hn, hr⟩
    | sent front => exact ⟨hi, ⟨hp.1, by have := hp.2; simp [front] at this ⊢; omega⟩, hn, hr⟩
    | emptied => exact ⟨by simp, ⟨hp.1, by simp⟩, hn, hr⟩
  | parked hst =>
    have same := hst.same.1
    exact ⟨(same.inbox :) ▸ hi, hp.parkedChange hst, (same.notices :) ▸ hn, fun i => same.probe i ▸ hr i⟩
  | engine hst =>
    have hr' := hr.engineChange hst
    cases hst <;> exact ⟨hi, hp, hn, hr'⟩
  | probes hst =>
    have hr' := hr.probeChange hst
    cases hst <;> exact ⟨hi, hp, hn, hr'⟩

/-- Settles O54: every change that adds to a holding place is made where there is room. -/
theorem stepKeepsTheCapacities : Obligations.StepKeepsTheCapacities := fun _ _ hs h =>
  step_keeps (fun _ _ hst hs => .same hst hs) (fun _ _ hst hs => hst.keeps_withinCapacity hs) hs h

end Sys2Proof.Machine
end

section
/-! PROOFS. Every step keeps candidates below the settle value and the adaptive mode within its confirm runs (R72, R77). -/

namespace Sys2Proof.Machine

/-! ### Sound definitions -/

theorem Definition.wellFormed_iff {d : Definition} : d.wellFormed = true ↔
    d.channelAgrees = true ∧ d.phaseFits = true ∧ d.windowFits = true ∧ d.confirmFits = true ∧ d.ringFits = true := by
  simp only [Definition.wellFormed, Bool.and_eq_true, and_assoc]

/-- A window in a sound definition has a settle of 1 or more (R9). -/
theorem Definition.one_le_settle {d : Definition} {w : Window} (h : d.wellFormed = true) (hw : d.style.window? = some w) :
    1 ≤ w.settle := by
  obtain ⟨-, -, hfits, -, -⟩ := Definition.wellFormed_iff.1 h
  simp only [Definition.windowFits, hw, Option.all_some, Window.wellFormed, Bool.and_eq_true, decide_eq_true_eq] at hfits
  omega

/-- Confirm runs in a sound definition are 1 or more (R10). -/
theorem Definition.one_le_confirmRuns {d : Definition} {k : Nat} (h : d.wellFormed = true)
    (hk : d.style.confirmRuns? = some k) : 1 ≤ k := by
  obtain ⟨-, -, -, hfits, -⟩ := Definition.wellFormed_iff.1 h
  simp only [Definition.confirmFits, hk, Option.all_some, Bool.and_eq_true, decide_eq_true_eq] at hfits
  exact hfits.1

@[simp] theorem Style.confirmRuns?_withWindow (st : Style) (window : Option Window) :
    (st.withWindow window).confirmRuns? = st.confirmRuns? := by
  cases st <;> cases window <;> rfl

/-- A sound window for the style takes the place of the one that it has. -/
theorem Style.window?_withWindow {st : Style} {window : Option Window} (hc : st ≠ .check)
    (hneed : st.need = .required → ∃ w, window = some w) : (st.withWindow window).window? = window := by
  cases st with
  | level => rfl
  | window | adaptive =>
    obtain ⟨w, rfl⟩ := hneed rfl
    rfl
  | check => exact absurd rfl hc

/-- A window replaced makes no style CHECK. -/
theorem Style.withWindow_eq_check (st : Style) (window : Option Window) : st.withWindow window = .check ↔ st = .check := by
  cases st <;> cases window <;> simp [Style.withWindow]

/-- SET_LIMITS makes a sound definition of a sound one (R16, R17). -/
theorem Definition.wellFormed_withWindow {d : Definition} {window : Option Window} {high low : Half}
    {hysteresis settle : Byte} (h : d.wellFormed = true) (hc : d.style ≠ .check)
    (hok : checkWindow d.style.need high low hysteresis settle = .ok window) :
    ({ d with style := d.style.withWindow window } : Definition).wellFormed = true := by
  have hsound := (checkWindow_examines d.style.need high low hysteresis settle).sound_of_ok hok
  obtain ⟨hchannel, hphase, -, hconfirm, hring⟩ := Definition.wellFormed_iff.1 h
  refine Definition.wellFormed_iff.2 ⟨?_, hphase, ?_, ?_, hring⟩
  · have hstyle : (d.style.withWindow window == .check) = (d.style == .check) := by
      rw [Bool.eq_iff_iff, beq_iff_eq, beq_iff_eq, Style.withWindow_eq_check]
    simpa only [Definition.channelAgrees, hstyle] using hchannel
  · simp only [Definition.windowFits, Style.window?_withWindow hc hsound.present, hsound.wellFormed]
  · simpa only [Definition.confirmFits, Style.confirmRuns?_withWindow] using hconfirm

/-! ### The settling step -/

/-- The consecutive runs that gave a raw verdict, this one counted (R72). -/
def nextCount (k : Option Candidate) (r : RawVerdict) : Nat :=
  match k with
  | some k => if k.verdict = r then k.count + 1 else 1
  | none => 1

theorem settleVerdict_eq (settle : Nat) (c : Verdict) (k : Option Candidate) (r : RawVerdict) :
    settleVerdict settle c k r =
      if c = .unknown then (r.toVerdict, none)
      else if c = r.toVerdict then (c, none)
      else if nextCount k r = settle then (r.toVerdict, none)
      else (c, some ⟨r, nextCount k r⟩) := rfl

theorem nextCount_bounds {settle : Nat} {k : Option Candidate} (r : RawVerdict) (hsettle : 1 ≤ settle)
    (hk : ∀ x, k = some x → x.count < settle) : 1 ≤ nextCount k r ∧ nextCount k r ≤ settle := by
  cases k with
  | none => exact ⟨le_rfl, hsettle⟩
  | some x =>
    have := hk x rfl
    simp only [nextCount]
    split <;> omega

/-- A candidate that a sound settling step leaves differs from the known confirmed verdict and is short of settle (R72). -/
theorem settleVerdict_candidate {settle : Nat} {c : Verdict} {k : Option Candidate} {r : RawVerdict} {k' : Candidate}
    (hsettle : 1 ≤ settle) (hk : ∀ x, k = some x → x.count < settle)
    (h : (settleVerdict settle c k r).2 = some k') :
    (settleVerdict settle c k r).1 ≠ .unknown ∧ (settleVerdict settle c k r).1 ≠ k'.verdict.toVerdict ∧
      1 ≤ k'.count ∧ k'.count < settle := by
  obtain ⟨hlo, hhi⟩ := nextCount_bounds r hsettle hk
  rw [settleVerdict_eq] at h ⊢
  by_cases hu : c = .unknown
  · simp [hu] at h
  by_cases hr : c = r.toVerdict
  · rw [if_neg hu, if_pos hr] at h
    cases h
  by_cases hs : nextCount k r = settle
  · rw [if_neg hu, if_neg hr, if_pos hs] at h
    cases h
  · rw [if_neg hu, if_neg hr, if_neg hs] at h ⊢
    obtain rfl := Option.some.inj h
    exact ⟨hu, hr, hlo, by dsimp only; omega⟩

/-! ### The law of one record -/

namespace Probe.VerdictLawful

/-- The law speaks of the definition, the mode, the candidate and the confirmed verdict alone. -/
theorem congr {p q : Probe} (h : p.VerdictLawful) (hd : q.defn = p.defn) (hm : q.mode = p.mode)
    (hk : q.candidate = p.candidate) (hc : q.confirmed = p.confirmed) : q.VerdictLawful := by
  unfold Probe.VerdictLawful at h ⊢
  rw [hd, hm, hk, hc]
  exact h

/-- A record without a definition is lawful where mode and candidate are absent. -/
theorem of_none {p : Probe} (hd : p.defn = none) (hm : p.mode = none) (hk : p.candidate = none) : p.VerdictLawful := by
  simp [Probe.VerdictLawful, hd, hm, hk]

theorem wellFormed {p : Probe} {d : Definition} (h : p.VerdictLawful) (hd : p.defn = some d) : d.wellFormed = true :=
  h.1 d hd

/-- A record started without a candidate is lawful where the mode is that of its style: present for ADAPTIVE alone, WATCHING,
or ESCALATED within the confirm runs. -/
theorem of_mode {p : Probe} {d : Definition} (hd : p.defn = some d) (hw : d.wellFormed = true)
    (hm : p.mode.isSome ↔ d.style.confirmRuns?.isSome)
    (hn : ∀ n, p.mode = some (.escalated n) → ∃ k, d.style.confirmRuns? = some k ∧ 1 ≤ n ∧ n ≤ k)
    (hk : p.candidate = none) : p.VerdictLawful := by
  refine ⟨fun d' hd' => ?_, ?_, fun n hmode => ?_, by simp [hk]⟩
  · obtain rfl := Option.some.inj (hd.symm.trans hd')
    exact hw
  · simpa [hd] using hm
  · obtain ⟨k, hk⟩ := hn n hmode
    exact ⟨d, k, hd, hk⟩

/-- The mode of a lawful record with its definition. -/
theorem mode_iff {p : Probe} {d : Definition} (h : p.VerdictLawful) (hd : p.defn = some d) :
    p.mode.isSome ↔ d.style.confirmRuns?.isSome := by
  simpa [hd] using h.2.1

theorem escalated {p : Probe} {d : Definition} {n : Nat} (h : p.VerdictLawful) (hd : p.defn = some d)
    (hm : p.mode = some (.escalated n)) : ∃ k, d.style.confirmRuns? = some k ∧ 1 ≤ n ∧ n ≤ k := by
  obtain ⟨d', k, hd', hk⟩ := h.2.2.1 n hm
  obtain rfl := Option.some.inj (hd.symm.trans hd')
  exact ⟨k, hk⟩

theorem define {p : Probe} {d : Definition} (hw : d.wellFormed = true) : (p.define d).VerdictLawful := by
  refine of_mode (d := d) rfl hw (by simp [Probe.define]) (fun n hm => ?_) rfl
  simp [Probe.define] at hm

/-- ESCALATED with all its confirm runs is a mode of the style (R12, R17). -/
theorem escalatedMode {d : Definition} {n : Nat} (hw : d.wellFormed = true)
    (hm : d.style.escalatedMode = some (.escalated n)) : ∃ k, d.style.confirmRuns? = some k ∧ 1 ≤ n ∧ n ≤ k := by
  obtain ⟨k, hk, e⟩ := Option.map_eq_some_iff.1 hm
  cases e
  exact ⟨n, hk, Definition.one_le_confirmRuns hw hk, le_rfl⟩

theorem arm {p : Probe} {d : Definition} (h : p.VerdictLawful) (hd : p.defn = some d) (due : Option Tick) :
    (p.arm d due).VerdictLawful :=
  of_mode (d := d) hd (h.wellFormed hd) (by simp [Probe.arm, Style.escalatedMode])
    (fun _ hm => escalatedMode (h.wellFormed hd) hm) rfl

theorem limit {p : Probe} {d : Definition} {window : Option Window} (h : p.VerdictLawful) (hd : p.defn = some d)
    (hw : ({ d with style := d.style.withWindow window } : Definition).wellFormed = true) :
    (p.limit d window).VerdictLawful := by
  refine of_mode (d := { d with style := d.style.withWindow window }) rfl hw ?_ (fun n hm => ?_) rfl
  · rw [Style.confirmRuns?_withWindow]
    simp only [Probe.limit]
    split
    · simp [Style.escalatedMode]
    · exact h.mode_iff hd
  · rw [Style.confirmRuns?_withWindow]
    simp only [Probe.limit] at hm
    split at hm
    · exact escalatedMode (h.wellFormed hd) hm
    · exact h.escalated hd hm

/-- The settling step with the window of the definition keeps the law (R72). -/
theorem settleBy {p : Probe} {d : Definition} {w : Window} (h : p.VerdictLawful) (hd : p.defn = some d)
    (hw : d.style.window? = some w) (raw : RawVerdict) : (p.settleBy w raw).VerdictLawful := by
  refine ⟨h.1, h.2.1, h.2.2.1, fun k hk => ?_⟩
  have hcount : ∀ x, p.candidate = some x → x.count < w.settle := fun x hx => by
    obtain ⟨d', w', hd', hw', -, -, -, hlt⟩ := h.2.2.2 x hx
    obtain rfl := Option.some.inj (hd.symm.trans hd')
    obtain rfl := Option.some.inj (hw.symm.trans hw')
    exact hlt
  exact ⟨d, w, hd, hw, settleVerdict_candidate (Definition.one_le_settle (h.wellFormed hd) hw) hcount hk⟩

/-- The run-down of an escalation keeps the law (R80). -/
theorem countDown {p : Probe} (h : p.VerdictLawful) : p.countDown.VerdictLawful := by
  unfold Probe.countDown
  split
  case h_2 => exact h
  case h_1 n hm =>
    obtain ⟨hw, hmode, hn, hk⟩ := h
    obtain ⟨d, k, hd, hk', hlo, hhi⟩ := hn n hm
    refine ⟨hw, by simpa [hm] using hmode, fun m hm' => ?_, hk⟩
    dsimp only at hm'
    split at hm'
    · cases hm'
    · cases hm'
      exact ⟨d, k, hd, hk', by omega, by omega⟩

/-- An escalation gives a mode of the style (R78). -/
theorem escalate {p : Probe} {d : Definition} {raw : RawVerdict} {n : Nat} (h : p.VerdictLawful) (hd : p.defn = some d)
    (he : p.escalates d raw = some n) : ({ p with mode := some (.escalated n) } : Probe).VerdictLawful := by
  have hk : d.style.confirmRuns? = some n := by
    unfold Probe.escalates at he
    split at he
    case h_1 hstyle _ =>
      split at he
      · cases he
        simp [Style.confirmRuns?, hstyle]
      · cases he
    case h_2 => cases he
  refine ⟨h.1, by simp [hd, hk], fun m hm => ?_, h.2.2.2⟩
  cases hm
  exact ⟨d, n, hd, hk, Definition.one_le_confirmRuns (h.wellFormed hd) hk, le_rfl⟩

/-- The evaluator's step keeps the law of the record, whatever operation ended (R65). -/
theorem afterRun {p : Probe} {d : Definition} (h : p.VerdictLawful) (hd : p.defn = some d) (r : RunResult) :
    (p.afterRun d r).VerdictLawful := by
  cases r with
  | check v => exact h.congr rfl rfl rfl rfl
  | level v =>
    refine countDown ?_
    cases hw : d.style.window? with
    | none => exact h.congr rfl rfl rfl rfl
    | some w => exact (h.settleBy hd hw _).congr rfl rfl rfl rfl
  | window raw =>
    simp only [Probe.afterRun, Probe.afterWindow]
    have hesc : ∀ q : Probe, q.VerdictLawful → q.defn = some d → (match d.style.window? with
        | some w => q.settleBy w raw
        | none => q).countGates.VerdictLawful := fun q hq hqd => by
      cases hw : d.style.window? with
      | none => exact hq.congr rfl rfl rfl rfl
      | some w => exact (hq.settleBy hqd hw raw).congr rfl rfl rfl rfl
    cases he : p.escalates d raw with
    | none => exact hesc p h hd
    | some n => exact hesc _ (h.escalate hd he) hd

end Probe.VerdictLawful

/-! ### The law of every record -/

namespace State.VerdictsLawful

theorem setProbe {s : State} (h : s.VerdictsLawful) {i : Fin 32} {q : Probe} (hq : q.VerdictLawful) :
    (s.setProbe i q).VerdictsLawful := by
  intro j
  rw [State.probe_setProbe]
  split
  · exact hq
  · exact h j

theorem same {s t : State} (hst : SameStore s t) (h : s.VerdictsLawful) : t.VerdictsLawful := fun i => by
  rw [hst.probe i]
  exact h i

theorem engineChange {s t : State} (hst : EngineChange s t) (h : s.VerdictsLawful) : t.VerdictsLawful := by
  cases hst with
  | @counted e _ _ d r _ counts =>
    obtain ⟨-, -, hdefn⟩ := State.countedDefn_eq_some counts
    exact h.setProbe (i := e.probe) (((h e.probe).afterRun hdefn r).congr rfl rfl rfl rfl)
  | took | gated | ended | shotDiscarded | shotReturned | quiesced | released => exact h

theorem probeChange {s t : State} (hst : ProbeChange s t) (h : s.VerdictsLawful) : t.VerdictsLawful := by
  cases hst with
  | @defined f _ d _ checked =>
    exact h.setProbe (.define ((checkDefinition_examines (defineFields f.payload)).sound_of_ok checked).wellFormed)
  | @armed i _ due _ defn => exact h.setProbe ((h i).arm defn due)
  | @disarmed i | @drained i | @overran i | @cameDue i => exact h.setProbe (i := i) ((h i).congr rfl rfl rfl rfl)
  | @limited _ i _ _ _ defn style checked =>
    exact h.setProbe (i := i) ((h i).limit defn (Definition.wellFormed_withWindow ((h i).wellFormed defn) style checked))
  | deleted => exact h.setProbe (.of_none rfl rfl rfl)
  | aligned =>
    intro i
    rw [State.enterRunning_probe, Probe.aligned_frame]
    exact (h i).congr rfl rfl rfl rfl
  | stopped | draining =>
    intro i
    rw [State.leaveRunning_probe]
    exact (h i).congr rfl rfl rfl rfl

end State.VerdictsLawful

theorem Change.keeps_verdictsLawful {s t : State} (hst : Change s t) (h : s.VerdictsLawful) : t.VerdictsLawful := by
  cases hst with
  | outside hst => exact h.same hst
  | reset hst => exact fun i => hst.probe i ▸ .of_none rfl rfl rfl
  | notices hst => exact (h.same hst.same.1 :)
  | queues hst => exact (h.same hst.same.1 :)
  | parked hst => exact (h.same hst.same.1 :)
  | engine hst => exact h.engineChange hst
  | probes hst => exact h.probeChange hst

/-- Settles O59: the settling step adopts a candidate that comes to settle, and an escalation starts at the confirm runs and only
falls; a definition accepted is sound. -/
theorem stepKeepsTheVerdictLaw : Obligations.StepKeepsTheVerdictLaw := fun _ _ hs h =>
  step_keeps (fun _ _ hst hs => hs.same hst) (fun _ _ hst hs => hst.keeps_verdictsLawful hs) hs h

end Sys2Proof.Machine
end

section
/-! PROOFS. Every step keeps the law of parked links, tags and one-shots (R43, R55, R163). -/

namespace Sys2Proof.Machine

/-! ### The ONE_SHOT entries of the due queue -/

/-- The ONE_SHOT entries, in their order. -/
def State.shots (s : State) : List DueEntry := s.dueQueue.filter DueEntry.isOneShot

theorem State.mem_shots {s : State} {e : OneShotEntry} : .oneShot e ∈ s.shots ↔ .oneShot e ∈ s.dueQueue := by
  simp [State.shots, DueEntry.isOneShot]

theorem State.countP_shots (s : State) (i : Fin 32) :
    s.shots.countP (DueEntry.isOneShotOf i) = s.dueQueue.countP (DueEntry.isOneShotOf i) := by
  rw [State.shots, List.countP_filter]
  refine congrArg (List.countP · s.dueQueue) (funext fun x => ?_)
  cases x <;> simp [DueEntry.isOneShotOf, DueEntry.isOneShot]

/-- A SCHEDULED entry queued leaves the ONE_SHOT entries as they are. -/
theorem filter_isOneShot_insertAhead (behind : DueEntry → Bool) (e : ScheduledEntry) (l : List DueEntry) :
    (insertAhead behind (.scheduled e) l).filter DueEntry.isOneShot = l.filter DueEntry.isOneShot := by
  induction l with
  | nil => rfl
  | cons y ys ih =>
    simp only [insertAhead]
    split
    · rfl
    · rw [List.filter_cons, List.filter_cons, ih]

theorem State.shots_queueScheduled (s : State) (i : Fin 32) (followUp : Bool) :
    (s.queueScheduled i followUp).shots = s.shots := filter_isOneShot_insertAhead _ _ _

/-! ### What the fixing of outcomes leaves of the parked list -/

/-- Link, tag and command of a parked entry, which its outcome does not touch. -/
def ParkedEntry.name (e : ParkedEntry) : Nat × Byte × ParkedCommand := (e.link, e.tag, e.command)

/-- Removing the entries of a link, or fixing their outcome, leaves part of the names, and every entry of another link. -/
theorem State.fixEntry_parked (body : ReplyBody) (s : State) (e : ParkedEntry) :
    ((State.fixEntry body s e).parked.map ParkedEntry.name).Sublist (s.parked.map ParkedEntry.name) ∧
      ∀ p ∈ s.parked, p.link ≠ e.link → p ∈ (State.fixEntry body s e).parked := by
  unfold State.fixEntry
  split
  · exact ⟨List.filter_sublist.map _, fun p hp hne => List.mem_filter.2 ⟨hp, by simpa using hne⟩⟩
  · refine ⟨?_, fun p hp hne => List.mem_map.2 ⟨p, hp, if_neg hne⟩⟩
    have hnames : (s.markFixed e.link body).parked.map ParkedEntry.name = s.parked.map ParkedEntry.name := by
      simp only [State.markFixed, List.map_map]
      exact List.map_congr_left fun p _ => by by_cases h : p.link = e.link <;> simp [h, ParkedEntry.name]
    rw [hnames]

/-- Fixing outcomes leaves part of the names, and every entry that shares its link with none that the condition names. -/
theorem State.fixOutcomes_parked (s : State) (which : ParkedEntry → Bool) (body : ReplyBody) :
    ((s.fixOutcomes which body).parked.map ParkedEntry.name).Sublist (s.parked.map ParkedEntry.name) ∧
      ∀ p ∈ s.parked, (∀ e ∈ s.parked, which e = true → p.link ≠ e.link) → p ∈ (s.fixOutcomes which body).parked := by
  have hfold : ∀ (l : List ParkedEntry) (u : State),
      ((l.foldl (State.fixEntry body) u).parked.map ParkedEntry.name).Sublist (u.parked.map ParkedEntry.name) ∧
        ∀ p ∈ u.parked, (∀ e ∈ l, p.link ≠ e.link) → p ∈ (l.foldl (State.fixEntry body) u).parked := by
    intro l
    induction l with
    | nil => exact fun u => ⟨List.Sublist.refl _, fun p hp _ => hp⟩
    | cons e l ih =>
      intro u
      obtain ⟨hsub, hkept⟩ := State.fixEntry_parked body u e
      obtain ⟨hsub', hkept'⟩ := ih (State.fixEntry body u e)
      exact ⟨hsub'.trans hsub, fun p hp hne =>
        hkept' p (hkept p hp (hne e List.mem_cons_self)) fun x hx => hne x (List.mem_cons_of_mem _ hx)⟩
  obtain ⟨hsub, hkept⟩ := hfold (s.parked.filter fun e => e.awaited && which e) s
  refine ⟨hsub, fun p hp hne => hkept p hp fun e he => ?_⟩
  obtain ⟨hmem, hwhich⟩ := List.mem_filter.1 he
  exact hne e hmem (Bool.and_eq_true_iff.1 hwhich).2

/-- The waiting entry whose outcome was fixed first is parked, with that outcome (R165). -/
theorem firstWaiting_mem {l : List ParkedEntry} {e : ParkedEntry} {n : Nat} {body : ReplyBody}
    (h : firstWaiting l = some (e, n, body)) : e ∈ l ∧ e.outcome = .fixed n body := by
  induction l generalizing e n body with
  | nil => cases h
  | cons x l ih =>
    cases ho : x.outcome with
    | awaited =>
      simp only [firstWaiting, ho] at h
      exact ⟨List.mem_cons_of_mem _ (ih h).1, (ih h).2⟩
    | fixed m b =>
      cases hr : firstWaiting l with
      | none =>
        simp only [firstWaiting, ho, hr, Option.some.injEq, Prod.mk.injEq] at h
        obtain ⟨rfl, rfl, rfl⟩ := h
        exact ⟨List.mem_cons_self, ho⟩
      | some found =>
        obtain ⟨f, k, c⟩ := found
        simp only [firstWaiting, ho, hr, ParkedEntry.firstFixed, Option.some.injEq] at h
        split at h <;> simp only [Prod.mk.injEq] at h <;> obtain ⟨rfl, rfl, rfl⟩ := h
        · exact ⟨List.mem_cons_of_mem _ (ih hr).1, (ih hr).2⟩
        · exact ⟨List.mem_cons_self, ho⟩

/-- The queuing of a waiting outcome unparks an entry with a fixed outcome, or changes nothing (R165). -/
theorem State.queueParked_cases (s : State) :
    s.queueParked = s ∨ ∃ e ∈ s.parked, ∃ n body, e.outcome = .fixed n body ∧
      s.queueParked = (s.unpark e.link).queueReply ⟨e.tag, e.command.code, body⟩ := by
  unfold State.queueParked
  split
  case h_1 e n body hw =>
    split
    · exact .inr ⟨e, (firstWaiting_mem hw).1, n, body, (firstWaiting_mem hw).2, rfl⟩
    · exact .inl rfl
  case h_2 => exact .inl rfl

/-! ### The law -/

namespace State.LinksLawful

/-- Two parked entries of one link are one. -/
theorem eq_of_link {s : State} (h : s.LinksLawful) {p q : ParkedEntry} (hp : p ∈ s.parked) (hq : q ∈ s.parked)
    (e : p.link = q.link) : p = q :=
  State.LinksDistinct.eq_of_link h.once hp hq e

/-- Two parked MEASUREs of one probe are one (R55). -/
theorem eq_of_measure {s : State} (h : s.LinksLawful) {p q : ParkedEntry} {i : Fin 32} (hp : p ∈ s.parked)
    (hq : q ∈ s.parked) (hpi : p.command = .measure i) (hqi : q.command = .measure i) : p = q := by
  have hone := h.onePerProbe i
  have hmem : ∀ x ∈ s.parked, x.command = .measure i → x ∈ s.parked.filter (ParkedEntry.isMeasureOf i) :=
    fun x hx hc => List.mem_filter.2 ⟨hx, by simp [ParkedEntry.isMeasureOf, hc]⟩
  have hp' := hmem p hp hpi
  have hq' := hmem q hq hqi
  rw [List.countP_eq_length_filter] at hone
  generalize s.parked.filter (ParkedEntry.isMeasureOf i) = l at hone hp' hq'
  obtain _ | ⟨x, _ | ⟨y, l⟩⟩ := l
  · cases hp'
  · rw [List.mem_singleton.1 hp', List.mem_singleton.1 hq']
  · simp at hone

/-- A queued ONE_SHOT entry belongs to the parked entry of its link. -/
theorem command_of_queued {s : State} (h : s.LinksLawful) {e : OneShotEntry} {p : ParkedEntry}
    (he : .oneShot e ∈ s.dueQueue) (hp : p ∈ s.parked) (hl : p.link = e.link) :
    p.command = .measure e.probe ∧ p.outcome = .awaited := by
  obtain ⟨q, hq, hql, hqc, hqo⟩ := h.entries e he
  obtain rfl := h.eq_of_link hp hq (hl.trans hql.symm)
  exact ⟨hqc, hqo⟩

/-- The law is kept where parked entries and ONE_SHOT entries only leave, and none leaves that a queued entry is linked to. -/
theorem shrink {s t : State} (h : s.LinksLawful)
    (names : (t.parked.map ParkedEntry.name).Sublist (s.parked.map ParkedEntry.name))
    (next : t.nextLink = s.nextLink) (queue : t.shots.Sublist s.shots)
    (flight : ∀ e op channel, t.engine = .busy ⟨.oneShot e, op, channel⟩ →
      ∃ op channel, s.engine = .busy ⟨.oneShot e, op, channel⟩)
    (kept : ∀ e, DueEntry.oneShot e ∈ t.dueQueue → ∀ p ∈ s.parked, p.link = e.link → p ∈ t.parked) :
    t.LinksLawful := by
  have named : ∀ p ∈ t.parked, ∃ q ∈ s.parked, q.link = p.link ∧ q.command = p.command := fun p hp => by
    obtain ⟨q, hq, hname⟩ := List.mem_map.1 (names.subset (List.mem_map_of_mem hp))
    simp only [ParkedEntry.name, Prod.mk.injEq] at hname
    exact ⟨q, hq, hname.1, hname.2.2⟩
  have queued : ∀ e, DueEntry.oneShot e ∈ t.dueQueue → DueEntry.oneShot e ∈ s.dueQueue := fun e he =>
    State.mem_shots.1 (queue.subset (State.mem_shots.2 he))
  refine ⟨fun p hp => ?_, ?_, fun i => ?_, ?_, fun e he => ?_, fun i => ?_, fun e op channel he => ?_⟩
  · obtain ⟨q, hq, hl, -⟩ := named p hp
    rw [next, ← hl]
    exact h.below q hq
  · have hmap : ∀ l : List ParkedEntry, l.map ParkedEntry.link = (l.map ParkedEntry.name).map Prod.fst := by
      simp [ParkedEntry.name]
    rw [hmap]
    exact (hmap s.parked ▸ h.once).sublist (names.map _)
  · have hcount : ∀ l : List ParkedEntry, l.countP (ParkedEntry.isMeasureOf i) =
        (l.map ParkedEntry.name).countP fun x => x.2.2 = .measure i := fun l => by
      rw [List.countP_map]
      rfl
    rw [hcount]
    exact names.countP_le.trans (hcount s.parked ▸ h.onePerProbe i)
  · have hmap : ∀ l : List ParkedEntry, l.map ParkedEntry.tag = (l.map ParkedEntry.name).map fun x => x.2.1 := by
      simp [ParkedEntry.name]
    rw [hmap]
    exact (hmap s.parked ▸ h.tags).sublist (names.map _)
  · obtain ⟨p, hp, hl, hc, ho⟩ := h.entries e (queued e he)
    exact ⟨p, kept e he p hp hl, hl, hc, ho⟩
  · rw [← State.countP_shots]
    exact queue.countP_le.trans (s.countP_shots i ▸ h.single i)
  · obtain ⟨op', channel', he'⟩ := flight e op channel he
    obtain ⟨hlt, hcommand, hqueue⟩ := h.inFlight e op' channel' he'
    refine ⟨next ▸ hlt, fun p hp hl => ?_, fun x hx => hqueue x (queued x hx)⟩
    obtain ⟨q, hq, hql, hqc⟩ := named p hp
    exact hqc ▸ hcommand q hq (hql.trans hl)

/-- The law is kept where only ONE_SHOT entries leave. -/
theorem fewerShots {s t : State} (h : s.LinksLawful) (parked : t.parked = s.parked) (next : t.nextLink = s.nextLink)
    (queue : t.shots.Sublist s.shots)
    (flight : ∀ e op channel, t.engine = .busy ⟨.oneShot e, op, channel⟩ →
      ∃ op channel, s.engine = .busy ⟨.oneShot e, op, channel⟩) : t.LinksLawful :=
  h.shrink (parked ▸ List.Sublist.refl _) next queue flight fun _ _ _ hp _ => parked ▸ hp

/-- The law speaks of the parked list, the next link, the due queue and the engine alone. -/
theorem congr {s t : State} (h : s.LinksLawful) (parked : t.parked = s.parked) (next : t.nextLink = s.nextLink)
    (queue : t.dueQueue = s.dueQueue) (engine : t.engine = s.engine) : t.LinksLawful :=
  h.fewerShots parked next (by simp only [State.shots, queue, List.Sublist.refl])
    fun _ op channel he => ⟨op, channel, engine ▸ he⟩

theorem same {s t : State} (hst : SameStore s t) (h : s.LinksLawful) : t.LinksLawful :=
  h.congr hst.parked hst.nextLink hst.dueQueue hst.engine

theorem reset {t : State} (h : ResetStore t) : t.LinksLawful := by
  refine ⟨?_, ?_, ?_, ?_, ?_, ?_, ?_⟩
  all_goals simp only [h.parked, h.dueQueue, List.not_mem_nil, List.map_nil, List.nodup_nil, List.countP_nil,
    false_implies, implies_true, Nat.zero_le]
  intro e op channel he
  obtain hi | hq := h.engine <;> simp [*] at he

/-- An entry parked under the next link, with a tag that no parked entry carries, keeps the law; a MEASURE where none of its
probe is parked. -/
theorem park {s : State} (h : s.LinksLawful) {tag : Byte} {command : ParkedCommand}
    (fresh : ∀ e ∈ s.parked, e.tag ≠ tag)
    (alone : ∀ i, command = .measure i → s.parked.any (ParkedEntry.isMeasureOf i) = false) :
    (s.park tag command).LinksLawful := by
  refine ⟨fun p hp => ?_, ?_, fun i => ?_, ?_, fun e he => ?_, h.single, fun e op channel he => ?_⟩
  · simp only [State.park_parked, List.mem_append, List.mem_singleton, State.park_nextLink] at hp ⊢
    obtain hp | rfl := hp
    · exact Nat.lt_succ_of_lt (h.below p hp)
    · exact Nat.lt_succ_self _
  · simp only [State.park_parked, List.map_append, List.map_cons, List.map_nil]
    refine List.nodup_append.2 ⟨h.once, by simp, fun a ha b hb => ?_⟩
    obtain ⟨p, hp, rfl⟩ := List.mem_map.1 ha
    obtain rfl := List.mem_singleton.1 hb
    exact Nat.ne_of_lt (h.below p hp)
  · simp only [State.park_parked, List.countP_append, List.countP_singleton]
    split
    case isTrue hi =>
      have hnone := alone i (by simpa [ParkedEntry.isMeasureOf] using hi)
      rw [List.countP_eq_zero.2 (by simpa using hnone)]
    case isFalse => simpa using h.onePerProbe i
  · simp only [State.park_parked, List.map_append, List.map_cons, List.map_nil]
    refine List.nodup_append.2 ⟨h.tags, by simp, fun a ha b hb => ?_⟩
    obtain ⟨p, hp, rfl⟩ := List.mem_map.1 ha
    obtain rfl := List.mem_singleton.1 hb
    exact fresh p hp
  · obtain ⟨p, hp, hrest⟩ := h.entries e he
    exact ⟨p, by simp [hp], hrest⟩
  · obtain ⟨hlt, hcommand, hqueue⟩ := h.inFlight e op channel he
    refine ⟨Nat.lt_succ_of_lt hlt, fun p hp hl => ?_, hqueue⟩
    simp only [State.park_parked, List.mem_append, List.mem_singleton] at hp
    obtain hp | rfl := hp
    · exact hcommand p hp hl
    · exact absurd hl (Nat.ne_of_gt hlt)

/-- A ONE_SHOT entry of a parked MEASURE that no entry in the queue or in flight is linked to may be queued. -/
theorem queueShot {s t : State} (h : s.LinksLawful) {e : OneShotEntry} {p : ParkedEntry} (hp : p ∈ s.parked)
    (hl : p.link = e.link) (hc : p.command = .measure e.probe) (ho : p.outcome = .awaited)
    (unlinked : ∀ x, DueEntry.oneShot x ∈ s.dueQueue → x.link ≠ e.link)
    (parked : t.parked = s.parked) (next : t.nextLink = s.nextLink)
    (queue : t.dueQueue.Perm (.oneShot e :: s.dueQueue))
    (flight : ∀ x op channel, t.engine = .busy ⟨.oneShot x, op, channel⟩ →
      s.engine = .busy ⟨.oneShot x, op, channel⟩ ∧ x.link ≠ e.link) : t.LinksLawful := by
  have queued : ∀ x, DueEntry.oneShot x ∈ t.dueQueue → x = e ∨ DueEntry.oneShot x ∈ s.dueQueue := fun x hx => by
    simpa using queue.mem_iff.1 hx
  refine ⟨by rw [parked, next]; exact h.below, parked ▸ h.once, parked ▸ h.onePerProbe, parked ▸ h.tags, fun x hx => ?_,
    fun i => ?_, fun x op channel hx => ?_⟩
  · rw [parked]
    obtain rfl | hx := queued x hx
    · exact ⟨p, hp, hl, hc, ho⟩
    · exact h.entries x hx
  · rw [queue.countP_eq, List.countP_cons]
    split
    case isTrue hi =>
      have hprobe : e.probe = i := by simpa [DueEntry.isOneShotOf] using hi
      have hnone : s.dueQueue.countP (DueEntry.isOneShotOf i) = 0 := by
        refine List.countP_eq_zero.2 fun x hx hxi => ?_
        cases x with
        | scheduled => simp [DueEntry.isOneShotOf] at hxi
        | oneShot x =>
          have hxp : x.probe = i := by simpa [DueEntry.isOneShotOf] using hxi
          obtain ⟨q, hq, hql, hqc, -⟩ := h.entries x hx
          obtain rfl := h.eq_of_measure hp hq (hprobe ▸ hc) (hxp ▸ hqc)
          exact unlinked x hx (hql.symm.trans hl)
      omega
    case isFalse => exact h.single i
  · obtain ⟨hx', hne⟩ := flight x op channel hx
    obtain ⟨hlt, hcommand, hqueue⟩ := h.inFlight x op channel hx'
    refine ⟨next ▸ hlt, parked ▸ hcommand, fun y hy => ?_⟩
    obtain rfl | hy := queued y hy
    · exact hne.symm
    · exact hqueue y hy

/-- Outcomes may be fixed of entries that no queued entry is linked to. -/
theorem fixOutcomes {s : State} (h : s.LinksLawful) {which : ParkedEntry → Bool} (body : ReplyBody)
    (unlinked : ∀ e, DueEntry.oneShot e ∈ s.dueQueue → ∀ p ∈ s.parked, which p = true → p.link ≠ e.link) :
    (s.fixOutcomes which body).LinksLawful := by
  obtain ⟨names, kept⟩ := s.fixOutcomes_parked which body
  refine h.shrink names (by simp) (by simp [State.shots]) (fun e op channel he => ⟨op, channel, by simpa using he⟩)
    fun e he p hp hl => kept p hp fun q hq hw hlq =>
      unlinked e (by simpa using he) q hq hw (hlq.symm.trans hl)

theorem parkedChange {s t : State} (hst : ParkedChange s t) (h : s.LinksLawful) : t.LinksLawful := by
  cases hst with
  | pauseParked fresh => exact h.park fresh fun i hi => by simp at hi
  | @measureParked tag i fresh alone =>
    have hpark := h.park (command := .measure i) fresh fun j hj => by cases hj; exact alone
    have older : ∀ x, DueEntry.oneShot x ∈ s.dueQueue → x.link ≠ s.nextLink := fun x hx => by
      obtain ⟨p, hp, hl, -⟩ := h.entries x hx
      exact hl ▸ Nat.ne_of_lt (h.below p hp)
    refine hpark.queueShot (e := ⟨i, s.nextLink⟩) (p := ⟨tag, .measure i, s.nextLink, .awaited⟩) (by simp) rfl rfl rfl
      older rfl rfl (insertAhead_perm _ _ _) fun x op channel hx => ⟨hx, ?_⟩
    exact Nat.ne_of_lt (h.inFlight x op channel hx).1
  | outcomeQueued =>
    obtain e | ⟨p, hp, n, body, ho, e⟩ := s.queueParked_cases <;> rw [e]
    · exact h
    · refine h.shrink (List.filter_sublist.map _) rfl (List.Sublist.refl _) (fun _ op channel he => ⟨op, channel, he⟩)
        fun x hx q hq hl => List.mem_filter.2 ⟨hq, ?_⟩
      have hne : q.link ≠ p.link := fun hqp => by
        obtain rfl := h.eq_of_link hq hp hqp
        simp [(h.command_of_queued hx hq hl).2] at ho
      simpa using hne
  | pausesFixed body =>
    refine h.fixOutcomes body fun e he p hp hw hl => ?_
    have := (h.command_of_queued he hp hl).1
    simp [ParkedEntry.isPause, this] at hw
  | @measuresFixed i body gone =>
    refine h.fixOutcomes body fun e he p hp hw hl => ?_
    have hc := (h.command_of_queued he hp hl).1
    have hi : e.probe = i := by simpa [ParkedEntry.isMeasureOf, hc] using hw
    simpa [DueEntry.isOneShotOf, hi] using gone _ he
  | @shotAnswered e op channel body flight =>
    obtain ⟨-, -, hqueue⟩ := h.inFlight e op channel flight
    have hidle : ({ s with engine := .idle } : State).LinksLawful :=
      h.fewerShots rfl rfl (List.Sublist.refl _) fun _ _ _ he => by simp at he
    refine hidle.fixOutcomes body fun x hx p hp hw hl => hqueue x hx ?_
    exact hl.symm.trans (by simpa using hw)
  | unlinked =>
    refine h.shrink (by simp) rfl ?_ (fun _ op channel he => ⟨op, channel, he⟩) fun e he => ?_
    · simp [State.shots, List.filter_filter]
    · simp [DueEntry.isOneShot] at he

theorem engineChange {s t : State} (hst : EngineChange s t) (h : s.LinksLawful) : t.LinksLawful := by
  cases hst with
  | @took x rest d op idle front =>
    have htail : rest.Sublist s.dueQueue := front ▸ List.sublist_cons_self x rest
    have hrest : ({ s with dueQueue := rest } : State).LinksLawful :=
      h.fewerShots rfl rfl (htail.filter _) fun _ op channel he => ⟨op, channel, he⟩
    refine ⟨hrest.below, hrest.once, hrest.onePerProbe, hrest.tags, hrest.entries, hrest.single, fun e op' channel he => ?_⟩
    obtain rfl : x = .oneShot e := by simp at he; exact he.1
    have hhead : DueEntry.oneShot e ∈ s.dueQueue := by simp [front]
    obtain ⟨p, hp, hl, hc, -⟩ := h.entries e hhead
    refine ⟨hl ▸ h.below p hp, fun q hq hql => (h.command_of_queued hhead hq hql).1, fun y hy hly => ?_⟩
    have hprobe : y.probe = e.probe := by
      have := (h.command_of_queued (front ▸ List.mem_cons_of_mem _ hy) hp (hl.trans hly.symm)).1
      simpa [hc, eq_comm] using this
    have hone := h.single e.probe
    rw [front, List.countP_cons_of_pos (by simp [DueEntry.isOneShotOf])] at hone
    have hpos : 0 < rest.countP (DueEntry.isOneShotOf e.probe) :=
      List.countP_pos_iff.2 ⟨_, hy, by simp [DueEntry.isOneShotOf, hprobe]⟩
    omega
  | @gated x op channel op' flight =>
    refine h.fewerShots rfl rfl (List.Sublist.refl _) fun e o c he => ?_
    obtain ⟨rfl, -, -⟩ : x = .oneShot e ∧ op' = o ∧ channel = c := by simpa using he
    exact ⟨op, channel, flight⟩
  | @ended _ _ _ after _ free =>
    refine h.fewerShots rfl rfl (List.Sublist.refl _) fun e o c he => ?_
    obtain rfl | rfl := free <;> simp at he
  | @counted e _ _ d r =>
    refine h.fewerShots rfl rfl ?_ fun _ _ _ he => by simp at he
    have hshots : (s.queueAfter e.probe d r).filter DueEntry.isOneShot = s.shots := by
      unfold State.queueAfter
      split
      · exact s.shots_queueScheduled _ _
      · rfl
    simp only [State.shots, hshots, List.Sublist.refl]
  | shotDiscarded | quiesced | released =>
    exact h.fewerShots rfl rfl (List.Sublist.refl _) fun _ _ _ he => by simp at he
  | @shotReturned e op channel flight awaited =>
    obtain ⟨-, hcommand, hqueue⟩ := h.inFlight e op channel flight
    obtain ⟨p, hp, hl⟩ := List.any_eq_true.1 awaited
    obtain ⟨hl, ho⟩ : p.link = e.link ∧ p.outcome = .awaited := by simpa [ParkedEntry.awaited] using hl
    exact h.queueShot hp hl (hcommand p hp hl) ho hqueue rfl rfl (List.Perm.refl _) fun _ _ _ he => by simp at he

theorem probeChange {s t : State} (hst : ProbeChange s t) (h : s.LinksLawful) : t.LinksLawful := by
  have stands : ∀ e op channel, s.engine = .busy ⟨.oneShot e, op, channel⟩ →
      ∃ op channel, s.engine = .busy ⟨.oneShot e, op, channel⟩ := fun _ op channel he => ⟨op, channel, he⟩
  cases hst with
  | defined | armed | drained | aligned | overran => exact h.fewerShots rfl rfl (List.Sublist.refl _) stands
  | disarmed | limited | deleted | stopped | draining =>
    exact h.fewerShots rfl rfl (List.filter_sublist.filter _) stands
  | @cameDue i =>
    exact h.fewerShots rfl rfl (s.shots_queueScheduled i false ▸ List.Sublist.refl _) stands

end State.LinksLawful

theorem Change.keeps_linksLawful {s t : State} (hst : Change s t) (h : s.LinksLawful) : t.LinksLawful := by
  cases hst with
  | outside hst => exact h.same hst
  | reset hst => exact .reset hst
  | notices hst =>
    have same := hst.same.1
    exact h.congr same.parked same.nextLink same.dueQueue same.engine
  | queues hst =>
    have same := hst.same.1
    exact h.congr same.parked same.nextLink same.dueQueue same.engine
  | parked hst => exact h.parkedChange hst
  | engine hst => exact h.engineChange hst
  | probes hst => exact h.probeChange hst

/-- Settles O56: a ONE_SHOT entry comes with its parked MEASURE and returns to the queue only while that is awaited, and an
outcome is fixed only of entries that no queued one-shot is linked to. -/
theorem stepKeepsTheLinkLaw : Obligations.StepKeepsTheLinkLaw := fun _ _ hs h =>
  step_keeps (fun _ _ hst hs => hs.same hst) (fun _ _ hst hs => hst.keeps_linksLawful hs) hs h

end Sys2Proof.Machine
end

section
/-! PROOFS. The order of the due queue (R44, R45), and the law of the schedule (R26, R43), which every step keeps. -/

namespace Sys2Proof.Machine

/-! ### The order of the due queue -/

/-- An insertion keeps an order where the new entry may precede what stands behind it and everything behind that, and the
others may precede the new entry. -/
theorem insertAhead_pairwise {R : DueEntry → DueEntry → Prop} {behind : DueEntry → Bool} {x : DueEntry}
    {l : List DueEntry} (hl : l.Pairwise R) (hbehind : ∀ y ∈ l, behind y = true → R x y)
    (hahead : ∀ y ∈ l, behind y = false → R y x) (htrans : ∀ y ∈ l, ∀ z ∈ l, R x y → R y z → R x z) :
    (insertAhead behind x l).Pairwise R := by
  induction l with
  | nil => exact List.pairwise_singleton _ _
  | cons y ys ih =>
    obtain ⟨hy, hys⟩ := List.pairwise_cons.1 hl
    simp only [insertAhead]
    split
    case isTrue hb =>
      have hxy := hbehind y (by simp) hb
      refine List.pairwise_cons.2 ⟨fun z hz => ?_, hl⟩
      obtain rfl | hz := List.mem_cons.1 hz
      · exact hxy
      · exact htrans y (by simp) z (by simp [hz]) hxy (hy z hz)
    case isFalse hb =>
      refine List.pairwise_cons.2 ⟨fun z hz => ?_, ih hys ?_ ?_ ?_⟩
      · obtain rfl | hz := mem_insertAhead.1 hz
        · exact hahead y (by simp) (by simpa using hb)
        · exact hy z hz
      · exact fun z hz => hbehind z (List.mem_cons_of_mem _ hz)
      · exact fun z hz => hahead z (List.mem_cons_of_mem _ hz)
      · exact fun z hz w hw => htrans z (List.mem_cons_of_mem _ hz) w (List.mem_cons_of_mem _ hw)

/-- An entry stands behind an arriving one exactly when that may precede it (R45). -/
theorem State.standsBehind_iff {s : State} {e : ScheduledEntry} {y : DueEntry} :
    s.standsBehind e y = true ↔ s.MayPrecede (.scheduled e) y := by
  cases y with
  | oneShot => simp [State.standsBehind, State.MayPrecede]
  | scheduled y =>
    simp only [State.standsBehind, State.MayPrecede, Bool.or_eq_true, Bool.and_eq_true, decide_eq_true_eq, beq_iff_eq,
      Fin.lt_def, eq_comm (a := s.classOf y.probe), eq_comm (a := y.arrival)]

/-- Of a SCHEDULED entry and an entry of another probe, one may precede the other. -/
theorem State.mayPrecede_of_not_standsBehind {s : State} {e : ScheduledEntry} {y : DueEntry}
    (h : s.standsBehind e y = false) (hy : ∀ y', y = .scheduled y' → y'.probe ≠ e.probe) :
    s.MayPrecede y (.scheduled e) := by
  cases y with
  | oneShot => trivial
  | scheduled y =>
    have hne : y.probe.val ≠ e.probe.val := fun hv => hy y rfl (Fin.ext hv)
    have hnot : ¬ s.MayPrecede (.scheduled e) (.scheduled y) := fun hp => by simp [State.standsBehind_iff.2 hp] at h
    simp only [State.MayPrecede] at hnot ⊢
    omega

/-- What a SCHEDULED entry may precede may be passed over. -/
theorem State.mayPrecede_trans {s : State} {e : ScheduledEntry} {y z : DueEntry} (hy : s.MayPrecede (.scheduled e) y)
    (hz : s.MayPrecede y z) : s.MayPrecede (.scheduled e) z := by
  cases y with
  | oneShot => exact hy.elim
  | scheduled y =>
    cases z with
    | oneShot => exact hz.elim
    | scheduled z =>
      simp only [State.MayPrecede] at hy hz ⊢
      omega

/-- An entry placed by R45 among entries of other probes keeps the order. -/
theorem State.insertScheduled_pairwise {s : State} {e : ScheduledEntry} {l : List DueEntry}
    (hl : l.Pairwise s.MayPrecede) (hne : ∀ y, .scheduled y ∈ l → y.probe ≠ e.probe) :
    (insertAhead (s.standsBehind e) (.scheduled e) l).Pairwise s.MayPrecede :=
  insertAhead_pairwise hl (fun _ _ hb => State.standsBehind_iff.1 hb)
    (fun _ hy hb => State.mayPrecede_of_not_standsBehind hb fun y' h => hne y' (h ▸ hy))
    fun _ _ _ _ hxy hyz => State.mayPrecede_trans hxy hyz

/-- An entry placed by R44 keeps the order. -/
theorem State.insertOneShot_pairwise {s : State} {e : OneShotEntry} {l : List DueEntry} (hl : l.Pairwise s.MayPrecede) :
    (insertAhead (fun y => !y.isOneShot) (.oneShot e) l).Pairwise s.MayPrecede := by
  refine insertAhead_pairwise hl (fun _ _ _ => trivial) (fun y _ hb => ?_) fun _ _ _ _ _ _ => trivial
  cases y with
  | oneShot => trivial
  | scheduled => simp [DueEntry.isOneShot] at hb

/-- The order depends on the classes of the probes of SCHEDULED entries alone. -/
theorem State.pairwise_congr {s t : State} {l : List DueEntry}
    (h : ∀ e, .scheduled e ∈ l → t.classOf e.probe = s.classOf e.probe) (hl : l.Pairwise s.MayPrecede) :
    l.Pairwise t.MayPrecede := by
  refine hl.imp_of_mem fun {a b} ha hb hab => ?_
  cases a with
  | oneShot => trivial
  | scheduled a =>
    cases b with
    | oneShot => exact hab.elim
    | scheduled b => simpa only [State.MayPrecede, h a ha, h b hb] using hab

/-- Settles O11: the entry goes ahead of the first that it may precede, and the order is transitive and total on entries of
different probes. -/
theorem dueQueueStaysOrdered : Obligations.DueQueueStaysOrdered := fun _ _ _ hl hne =>
  ⟨State.insertScheduled_pairwise hl hne, insertAhead_sublist _ _ _⟩

/-! ### The law of the schedule -/

theorem DueEntry.isScheduledOf_iff {i : Fin 32} {x : DueEntry} :
    x.isScheduledOf i = true ↔ ∃ e, x = .scheduled e ∧ e.probe = i := by
  cases x <;> simp [DueEntry.isScheduledOf]

theorem State.scheduledInFlight_iff {s : State} :
    s.scheduledInFlight = true ↔ ∃ e op channel, s.engine = .busy ⟨.scheduled e, op, channel⟩ := by
  unfold State.scheduledInFlight
  split
  case h_1 e op channel he => simpa using ⟨e, op, channel, he⟩
  case h_2 hne =>
    refine iff_of_false (by simp) ?_
    rintro ⟨e, op, channel, he⟩
    exact hne e op channel he

@[simp] theorem SchedulerState.drained_eq_running (st : SchedulerState) : st.drained = .running ↔ st = .running := by
  cases st <;> simp [SchedulerState.drained]

theorem SchedulerState.drained_ne_draining (st : SchedulerState) : st.drained ≠ .draining := by
  cases st <;> simp [SchedulerState.drained]

namespace State.ScheduleLawful

/-- DRAINING waits for a scheduled operation, so an engine without one is not in DRAINING (R31). -/
theorem not_draining {s : State} (h : s.ScheduleLawful)
    (hno : ∀ e op channel, s.engine ≠ .busy ⟨.scheduled e, op, channel⟩) : s.scheduler ≠ .draining := fun hd => by
  obtain ⟨e, op, channel, he⟩ := State.scheduledInFlight_iff.1 (h.draining hd)
  exact hno e op channel he

/-- The law is kept where entries only leave, and those that stay keep their probe's state, generation and class. -/
theorem shrink {s t : State} (h : s.ScheduleLawful) (defined : ∀ i, (t.probe i).state = .free ↔ (t.probe i).defn = none)
    (nextDue : ∀ i, (t.probe i).nextDue.isSome ↔ (t.probe i).state = .armed ∧ t.scheduler = .running)
    (queue : t.dueQueue.Sublist s.dueQueue)
    (entry : ∀ e, .scheduled e ∈ t.dueQueue → (s.scheduler = .running → t.scheduler = .running) ∧
      (t.probe e.probe).state = (s.probe e.probe).state ∧
      (t.probe e.probe).generation = (s.probe e.probe).generation ∧ t.classOf e.probe = s.classOf e.probe)
    (flight : ∀ e op channel, t.engine = .busy ⟨.scheduled e, op, channel⟩ →
      ∃ op channel, s.engine = .busy ⟨.scheduled e, op, channel⟩)
    (draining : t.scheduler = .draining → t.scheduledInFlight = true) : t.ScheduleLawful := by
  refine ⟨defined, nextDue, fun e he => ?_, fun i => queue.countP_le.trans (h.single i), fun e op channel he hg x hx hxe => ?_,
    draining, ?_⟩
  · obtain ⟨hrun, hstate, hgen, -⟩ := entry e he
    obtain ⟨hrun', hstate', hgen'⟩ := h.entries e (queue.subset he)
    exact ⟨hrun hrun', hstate.trans hstate', hgen'.trans hgen.symm⟩
  · obtain ⟨y, rfl, hy⟩ := DueEntry.isScheduledOf_iff.1 hxe
    obtain ⟨-, -, hgen, -⟩ := entry y hx
    obtain ⟨op', channel', he'⟩ := flight e op channel he
    rw [hy] at hgen
    exact h.inFlight e op' channel' he' (hg.trans hgen) _ (queue.subset hx) hxe
  · exact State.pairwise_congr (fun e he => (entry e he).2.2.2) (h.ordered.sublist queue)

/-- The law is kept where one record is written, with entries only leaving, and those of that probe all, unless its state,
generation and class stay. -/
theorem write {s t : State} (h : s.ScheduleLawful) {i : Fin 32} {q : Probe} (probes : t.probes = s.probes.set i q)
    (scheduler : t.scheduler = s.scheduler) (engine : t.engine = s.engine) (queue : t.dueQueue.Sublist s.dueQueue)
    (defined : q.state = .free ↔ q.defn = none) (nextDue : q.nextDue.isSome ↔ q.state = .armed ∧ s.scheduler = .running)
    (own : (∀ e, .scheduled e ∈ t.dueQueue → e.probe ≠ i) ∨
      (q.state = (s.probe i).state ∧ q.generation = (s.probe i).generation ∧ q.defn = (s.probe i).defn)) :
    t.ScheduleLawful := by
  have hprobe : ∀ j, t.probe j = if j = i then q else s.probe j := fun j => by
    rw [← State.probe_setProbe]
    simp only [State.probe, probes, State.setProbe_probes]
  refine h.shrink (fun j => ?_) (fun j => ?_) queue (fun e he => ⟨fun hr => scheduler.trans hr, ?_⟩)
    (fun e op channel he => ⟨op, channel, engine ▸ he⟩) fun hd => ?_
  · rw [hprobe]
    split
    · exact defined
    · exact h.defined j
  · rw [hprobe, scheduler]
    split
    · exact nextDue
    · exact h.nextDue j
  · by_cases hi : e.probe = i
    · obtain hno | ⟨hs, hg, hd⟩ := own
      · exact absurd hi (hno e he)
      · simp only [State.classOf, hprobe, hi, if_true, hs, hg, hd, and_self]
    · simp only [State.classOf, hprobe, hi, if_false, and_self]
  · rw [State.scheduledInFlight_iff, engine, ← State.scheduledInFlight_iff]
    exact h.draining (scheduler ▸ hd)

/-- The law speaks of the probes, the scheduler, the due queue and the engine alone. -/
theorem congr {s t : State} (h : s.ScheduleLawful) (probes : t.probes = s.probes) (scheduler : t.scheduler = s.scheduler)
    (queue : t.dueQueue.Sublist s.dueQueue) (engine : t.engine = s.engine) : t.ScheduleLawful :=
  h.write (i := 0) (q := s.probe 0) (probes.trans (by simp [State.probe])) scheduler engine queue (h.defined 0)
    (h.nextDue 0) (.inr ⟨rfl, rfl, rfl⟩)

theorem same {s t : State} (hst : SameStore s t) (h : s.ScheduleLawful) : t.ScheduleLawful :=
  h.congr hst.probes hst.scheduler (hst.dueQueue ▸ List.Sublist.refl _) hst.engine

/-- The law is kept where the engine stops without a scheduled operation and no drain is left waiting. -/
theorem stop {s t : State} (h : s.ScheduleLawful) (probes : t.probes = s.probes)
    (scheduler : t.scheduler = s.scheduler.drained) (queue : t.dueQueue = s.dueQueue)
    (free : t.engine = .idle ∨ t.engine = .quiesced) : t.ScheduleLawful := by
  have hprobe : ∀ i, t.probe i = s.probe i := fun i => by simp only [State.probe, probes]
  refine h.shrink (fun i => hprobe i ▸ h.defined i) (fun i => ?_) (queue ▸ List.Sublist.refl _)
    (fun e _ => ⟨fun hr => by simp [scheduler, hr], ?_⟩) (fun _ _ _ he => ?_) fun hd => ?_
  · rw [hprobe, scheduler, SchedulerState.drained_eq_running]
    exact h.nextDue i
  · simp only [State.classOf, hprobe, and_self]
  · obtain hf | hf := free <;> simp [hf] at he
  · exact absurd (scheduler.symm.trans hd) (SchedulerState.drained_ne_draining _)

/-- Out of DRAINING the scheduler does not change when an operation ends. -/
theorem drained_eq {s : State} (h : s.ScheduleLawful)
    (hno : ∀ e op channel, s.engine ≠ .busy ⟨.scheduled e, op, channel⟩) : s.scheduler = s.scheduler.drained := by
  have := h.not_draining hno
  cases hs : s.scheduler <;> simp_all [SchedulerState.drained]

/-- An entry may be added in order: a ONE_SHOT entry, or a SCHEDULED entry of an ARMED probe and its generation in RUNNING where
the probe has none and no run of that generation is in flight (R35, R45). -/
theorem grow {s t : State} (h : s.ScheduleLawful) {x : DueEntry} (probes : t.probes = s.probes)
    (scheduler : t.scheduler = s.scheduler) (queue : t.dueQueue.Perm (x :: s.dueQueue))
    (ordered : t.dueQueue.Pairwise t.MayPrecede)
    (entry : ∀ e, x = .scheduled e → s.scheduler = .running ∧ (s.probe e.probe).state = .armed ∧
      e.generation = (s.probe e.probe).generation ∧ ∀ y ∈ s.dueQueue, y.isScheduledOf e.probe = false)
    (flight : ∀ e op channel, t.engine = .busy ⟨.scheduled e, op, channel⟩ →
      e.generation = (s.probe e.probe).generation →
      (∃ op channel, s.engine = .busy ⟨.scheduled e, op, channel⟩) ∧ x.isScheduledOf e.probe = false)
    (draining : t.scheduler = .draining → t.scheduledInFlight = true) : t.ScheduleLawful := by
  have hprobe : ∀ i, t.probe i = s.probe i := fun i => by simp only [State.probe, probes]
  have hmem : ∀ y ∈ t.dueQueue, y = x ∨ y ∈ s.dueQueue := fun y hy => List.mem_cons.1 (queue.mem_iff.1 hy)
  refine ⟨fun i => hprobe i ▸ h.defined i, fun i => ?_, fun e he => ?_, fun i => ?_, fun e op channel he hg y hy hye => ?_,
    draining, ordered⟩
  · rw [hprobe, scheduler]
    exact h.nextDue i
  · rw [hprobe, scheduler]
    obtain hx | he := hmem _ he
    · obtain ⟨hr, hs, hg, -⟩ := entry e hx.symm
      exact ⟨hr, hs, hg⟩
    · exact h.entries e he
  · rw [queue.countP_eq, List.countP_cons]
    split
    case isTrue hi =>
      obtain ⟨e, rfl, rfl⟩ := DueEntry.isScheduledOf_iff.1 hi
      obtain ⟨-, -, -, hno⟩ := entry e rfl
      rw [List.countP_eq_zero.2 fun y hy => by simp [hno y hy]]
    case isFalse => exact h.single i
  · rw [hprobe] at hg
    obtain ⟨⟨op', channel', he'⟩, hxe⟩ := flight e op channel he hg
    obtain rfl | hy := hmem y hy
    · simp [hxe] at hye
    · exact h.inFlight e op' channel' he' hg y hy hye

/-- A ONE_SHOT entry may be added in order. -/
theorem growShot {s t : State} (h : s.ScheduleLawful) {x : OneShotEntry} (probes : t.probes = s.probes)
    (scheduler : t.scheduler = s.scheduler) (queue : t.dueQueue.Perm (.oneShot x :: s.dueQueue))
    (ordered : t.dueQueue.Pairwise s.MayPrecede)
    (flight : ∀ e op channel, t.engine = .busy ⟨.scheduled e, op, channel⟩ →
      ∃ op channel, s.engine = .busy ⟨.scheduled e, op, channel⟩)
    (draining : t.scheduler = .draining → t.scheduledInFlight = true) : t.ScheduleLawful :=
  h.grow probes scheduler queue
    (State.pairwise_congr (fun e _ => by simp only [State.classOf, State.probe, probes]) ordered)
    (fun _ he => by cases he) (fun e op channel he _ => ⟨flight e op channel he, rfl⟩) draining

theorem parkedChange {s t : State} (hst : ParkedChange s t) (h : s.ScheduleLawful) : t.ScheduleLawful := by
  have hsame := hst.same.1
  cases hst with
  | pauseParked => exact h.congr rfl rfl (List.Sublist.refl _) rfl
  | measureParked =>
    exact h.growShot rfl rfl (insertAhead_perm _ _ _) (State.insertOneShot_pairwise h.ordered)
      (fun e op channel he => ⟨op, channel, he⟩) h.draining
  | outcomeQueued =>
    obtain e | ⟨p, -, n, body, -, e⟩ := s.queueParked_cases <;> rw [e]
    · exact h
    · exact h.congr rfl rfl (List.Sublist.refl _) rfl
  | pausesFixed | measuresFixed => exact h.congr (by simp) (by simp) (by simp) (by simp)
  | shotAnswered body flight =>
    exact h.stop (by simp) (by simp [← h.drained_eq (by simp [flight])]) (by simp) (by simp)
  | unlinked => exact h.congr rfl rfl List.filter_sublist rfl

theorem engineChange {s t : State} (hst : EngineChange s t) (h : s.ScheduleLawful) : t.ScheduleLawful := by
  cases hst with
  | @took x rest d op idle front =>
    have htail : rest.Sublist s.dueQueue := front ▸ List.sublist_cons_self x rest
    have hrest : ({ s with dueQueue := rest } : State).ScheduleLawful := h.congr rfl rfl htail rfl
    refine ⟨hrest.defined, hrest.nextDue, hrest.entries, hrest.single, fun e op' channel he _ y hy hye => ?_, fun hd => ?_,
      hrest.ordered⟩
    · obtain rfl : x = .scheduled e := by simp at he; exact he.1
      have hone := h.single e.probe
      have hpos : 0 < rest.countP (DueEntry.isScheduledOf e.probe) := List.countP_pos_iff.2 ⟨y, hy, hye⟩
      rw [front, List.countP_cons_of_pos (by simp [DueEntry.isScheduledOf])] at hone
      omega
    · exact absurd hd (h.not_draining (by simp [idle]))
  | @gated x op channel op' flight =>
    refine ⟨h.defined, h.nextDue, h.entries, h.single, fun e o c he hg => ?_, fun hd => ?_, h.ordered⟩
    · obtain ⟨rfl, -, -⟩ : x = .scheduled e ∧ op' = o ∧ channel = c := by simpa using he
      exact h.inFlight e op channel flight hg
    · obtain ⟨e, o, c, he⟩ := State.scheduledInFlight_iff.1 (h.draining hd)
      obtain ⟨rfl, -, -⟩ : x = .scheduled e ∧ op = o ∧ channel = c := by simpa [flight] using he
      rfl
  | @ended _ _ _ after _ free => exact h.stop rfl rfl rfl free
  | shotDiscarded flight => exact h.stop rfl (h.drained_eq (by simp [flight])) rfl (.inr rfl)
  | shotReturned flight =>
    exact h.growShot rfl rfl (List.Perm.refl _) (List.pairwise_cons.2 ⟨fun _ _ => trivial, h.ordered⟩)
      (fun _ _ _ he => by simp at he) fun hd => absurd hd (h.not_draining (by simp [flight]))
  | quiesced idle => exact h.stop rfl (h.drained_eq (by simp [idle])) rfl (.inr rfl)
  | released quiesced => exact h.stop rfl (h.drained_eq (by simp [quiesced])) rfl (.inl rfl)
  | @counted e op channel d r flight counts =>
    obtain ⟨hstate, hgen, -⟩ := State.countedDefn_eq_some counts
    obtain ⟨hs, hd, hg, hn⟩ := s.probeAfter_kept e d r
    let u : State := { s.setProbe e.probe (s.probeAfter e d r) with
      engine := .idle, scheduler := s.scheduler.drained, health := s.healthAfter r }
    have hwritten : (s.setProbe e.probe (s.probeAfter e d r)).ScheduleLawful :=
      h.write rfl rfl rfl (List.Sublist.refl _) (by rw [hs, hd]; exact h.defined _) (by rw [hs, hn]; exact h.nextDue _)
        (.inr ⟨hs, hg, hd⟩)
    have hu : u.ScheduleLawful := hwritten.stop rfl rfl rfl (.inl rfl)
    by_cases hf : s.follows e.probe d r = true
    · have hrunning : s.scheduler = .running := by
        cases r <;> simp [State.follows] at hf
        exact hf.2
      have hclass : ∀ i, u.classOf i = s.classOf i := State.classOf_setProbe hd
      have hnone : ∀ y ∈ s.dueQueue, y.isScheduledOf e.probe = false := fun y hy => by
        simpa using h.inFlight e op channel flight hgen.symm y hy
      have hqueue : s.queueAfter e.probe d r = insertAhead
          (s.standsBehind ⟨e.probe, (s.probe e.probe).generation, s.counter, true, s.elapsed⟩)
          (.scheduled ⟨e.probe, (s.probe e.probe).generation, s.counter, true, s.elapsed⟩) s.dueQueue := by
        rw [State.queueAfter, if_pos hf]
        rfl
      have hprobe : u.probe e.probe = s.probeAfter e d r := State.probe_setProbe_same s _ _
      refine hu.grow rfl rfl (hqueue ▸ insertAhead_perm _ _ _) ?_ ?_ (fun _ _ _ he => by simp at he) hu.draining
      · refine State.pairwise_congr (fun y _ => hclass y.probe) ?_
        rw [hqueue]
        exact State.insertScheduled_pairwise h.ordered fun y hy hye => by
          simpa [DueEntry.isScheduledOf, hye] using hnone _ hy
      · rintro x ⟨⟩
        rw [hprobe, hs, hg]
        exact ⟨by simp [u, hrunning], hstate, rfl, hnone⟩
    · have hqueue : s.queueAfter e.probe d r = s.dueQueue := by rw [State.queueAfter, if_neg hf]
      rw [hqueue]
      exact hu

/-- A due queue from which the entries of a probe are dropped holds none. -/
theorem probe_ne_of_mem_filter {i : Fin 32} {p : DueEntry → Bool} {l : List DueEntry}
    (hp : ∀ x, x.isScheduledOf i = true → p x = false) {e : ScheduledEntry} (he : .scheduled e ∈ l.filter p) :
    e.probe ≠ i := fun hi => by
  have := (List.mem_filter.1 he).2
  rw [hp _ (by simp [DueEntry.isScheduledOf, hi])] at this
  cases this

/-- The law is kept where the scheduler leaves RUNNING, with every next due and SCHEDULED entry (R29). -/
theorem left {s : State} (h : s.ScheduleLawful) {st : SchedulerState} (hst : st ≠ .running)
    (draining : st = .draining → s.scheduledInFlight = true) : (s.leaveRunning st).ScheduleLawful := by
  refine h.shrink (fun i => ?_) (fun i => ?_) List.filter_sublist (fun e he => ?_)
    (fun e op channel he => ⟨op, channel, he⟩) fun hd => ?_
  · rw [State.leaveRunning_probe]
    exact h.defined i
  · rw [State.leaveRunning_probe]
    simp [State.leaveRunning, State.dropEntries, State.mapProbes, hst]
  · simp [State.leaveRunning, State.dropEntries, State.mapProbes, DueEntry.isOneShot] at he
  · exact draining hd

/-- A probe without an outstanding run has no entry, and no run of its generation is in flight (R36). -/
theorem idle_of_runOutstanding {s : State} {i : Fin 32} (h : s.runOutstanding i = false) :
    (∀ x ∈ s.dueQueue, x.isScheduledOf i = false) ∧ ∀ e op channel, s.engine = .busy ⟨.scheduled e, op, channel⟩ →
      e.generation = (s.probe e.probe).generation → i ≠ e.probe := by
  simp only [State.runOutstanding, Bool.or_eq_false_iff, List.any_eq_false, Bool.not_eq_true] at h
  refine ⟨h.1, fun e op channel he hg hi => ?_⟩
  obtain ⟨-, hfree⟩ := h
  simp [he, hg, hi] at hfree

theorem probeChange {s t : State} (hst : ProbeChange s t) (h : s.ScheduleLawful) : t.ScheduleLawful := by
  have unarmed : ∀ {i : Fin 32}, (s.probe i).state ≠ .armed → ∀ e, .scheduled e ∈ s.dueQueue → e.probe ≠ i :=
    fun hs e he hi => hs (hi ▸ (h.entries e he).2.1)
  cases hst with
  | @defined _ i d free =>
    exact h.write (i := i) rfl rfl rfl (List.Sublist.refl _) (by simp [Probe.define])
      (by simp [Probe.define, Probe.cleared]) (.inl (unarmed (by simp [free])))
  | @armed i d due state defn dueIff =>
    exact h.write (i := i) rfl rfl rfl (List.Sublist.refl _) (by simp [Probe.arm, defn]) (by simp [Probe.arm, dueIff])
      (.inl (unarmed (by simp [state])))
  | @disarmed i state =>
    have hdefn : (s.probe i).defn ≠ none := fun hd => by simp [(h.defined i).2 hd] at state
    exact h.write (i := i) rfl rfl rfl List.filter_sublist (by simpa using hdefn) (by simp)
      (.inl fun _ he => probe_ne_of_mem_filter (by simp) he)
  | @limited _ i d window state =>
    exact h.write (i := i) rfl rfl rfl List.filter_sublist (by simp [Probe.limit, state]) (h.nextDue i)
      (.inl fun _ he => probe_ne_of_mem_filter (by simp) he)
  | @drained i => exact h.write (i := i) rfl rfl rfl (List.Sublist.refl _) (h.defined i) (h.nextDue i) (.inr ⟨rfl, rfl, rfl⟩)
  | @deleted i =>
    exact h.write (i := i) rfl rfl rfl List.filter_sublist (by simp [Probe.cleared]) (by simp [Probe.cleared])
      (.inl fun _ he => probe_ne_of_mem_filter (fun x hx => by simp [hx]) he)
  | aligned idle =>
    have hnone : ∀ i, (s.probe i).nextDue.isSome ↔ False := fun i => by rw [h.nextDue i]; simp [idle]
    refine h.shrink (fun i => ?_) (fun i => ?_) (List.Sublist.refl _) (fun e he => absurd (h.entries e he).1 idle)
      (fun e op channel he => ⟨op, channel, he⟩) fun hd => by cases hd
    · rw [State.enterRunning_probe, Probe.aligned_frame]
      exact h.defined i
    · rw [State.enterRunning_probe]
      unfold Probe.aligned
      split
      case h_1 hs _ => simp [hs, State.enterRunning]
      case h_2 hno =>
        rw [hnone i]
        refine iff_of_false id fun harmed => ?_
        obtain ⟨d, hd⟩ := Option.ne_none_iff_exists'.1 fun hd => by simpa [(h.defined i).2 hd] using harmed.1
        exact hno d harmed.1 hd
  | stopped => exact h.left (by simp) fun hd => by cases hd
  | draining _ flight => exact h.left (by simp) fun _ => flight
  | @overran i =>
    exact h.write (i := i) rfl rfl rfl (List.Sublist.refl _) (h.defined i)
      (by simpa [Probe.overrun, Probe.advanced] using h.nextDue i) (.inr ⟨rfl, rfl, rfl⟩)
  | @cameDue i d running due outstanding =>
    obtain ⟨hnone, hidle⟩ := idle_of_runOutstanding outstanding
    have hqueued : (s.queueScheduled i false).ScheduleLawful := by
      refine h.grow rfl rfl (insertAhead_perm _ _ _) ?_ (by rintro e ⟨⟩; exact ⟨running, due.1, rfl, hnone⟩)
        (fun e op channel he hg => ⟨⟨op, channel, he⟩, ?_⟩) h.draining
      · exact State.insertScheduled_pairwise h.ordered fun y hy hyi => by
          simpa [DueEntry.isScheduledOf, hyi] using hnone _ hy
      · simpa [DueEntry.isScheduledOf] using hidle e op channel he hg
    exact hqueued.write (i := i) rfl rfl rfl (List.Sublist.refl _) (h.defined i)
      (by simpa [Probe.advanced] using h.nextDue i) (.inr ⟨rfl, rfl, rfl⟩)

theorem reset {t : State} (h : ResetStore t) : t.ScheduleLawful := by
  have hengine : ∀ e op channel, t.engine ≠ .busy ⟨.scheduled e, op, channel⟩ := fun _ _ _ he => by
    obtain hf | hf := h.engine <;> simp [hf] at he
  exact ⟨fun i => by simp [h.probe, Probe.cleared], fun i => by simp [h.probe, Probe.cleared], by simp [h.dueQueue],
    by simp [h.dueQueue], fun e op channel he => absurd he (hengine e op channel), by simp [h.scheduler],
    by simp [h.dueQueue]⟩

end State.ScheduleLawful

theorem Change.keeps_scheduleLawful {s t : State} (hst : Change s t) (h : s.ScheduleLawful) : t.ScheduleLawful := by
  cases hst with
  | outside hst => exact h.same hst
  | reset hst => exact .reset hst
  | notices hst =>
    have same := hst.same.1
    exact h.congr same.probes same.scheduler (same.dueQueue ▸ List.Sublist.refl _) same.engine
  | queues hst =>
    have same := hst.same.1
    exact h.congr same.probes same.scheduler (same.dueQueue ▸ List.Sublist.refl _) same.engine
  | parked hst => exact h.parkedChange hst
  | engine hst => exact h.engineChange hst
  | probes hst => exact h.probeChange hst

/-- Settles O55: an entry is queued in RUNNING for an ARMED probe that has none, and leaves with what made it lawful: the
probe's state, its generation or RUNNING. -/
theorem stepKeepsTheScheduleLaw : Obligations.StepKeepsTheScheduleLaw := fun _ _ hs h =>
  step_keeps (fun _ _ hst hs => hs.same hst) (fun _ _ hst hs => hst.keeps_scheduleLawful hs) hs h

end Sys2Proof.Machine
end

section
/-! PROOFS. What each row of the opcode table comes to: an event of the part after the owed work, or the taking of a command. The
order of owed work, the conditions of a taking, the tick and the resets. -/

namespace Sys2Proof.Machine

/-! ### The rows of the opcode table -/

/-- How each host command is carried out once it is taken. -/
def carryOut : HostCommand → Frame → State → State
  | .hello => fun f t => t.answer f (.hello t.report)
  | .define => fun f => State.onProbe f (State.defineProbe f)
  | .arm => fun f => State.onProbe f (State.armProbe f)
  | .disarm => fun f => State.onProbe f (State.disarmProbe f)
  | .delete => fun f => State.onProbe f (State.deleteProbe f)
  | .setLimits => fun f => State.onProbe f (State.limitProbe f)
  | .readProbe => fun f => State.onProbe f fun i t => t.answer f (.probe (t.probe i))
  | .measure => fun f => State.onProbe f (State.measureProbe f)
  | .run => State.runScheduler
  | .pause => State.pauseScheduler
  | .setTime => State.loadTime
  | .readTime => fun f t => t.answer f (.time t.counter t.scheduler)
  | .readHistory => fun f => State.onProbe f (State.readRing f)
  | .ack => State.acknowledge
  | .hold => State.replaceHold
  | .linkConfig => State.configureLink
  | .checkConfig => State.configureCheck
  | .readCounters => State.readCounters
  | .softReset => fun f t => { t with softResetPending := true }.answer f .softReset

/-- The row of a host command is its taking. -/
theorem exec_instr (c : HostCommand) (s : State) : exec c.instr s = .next (s.serve c (carryOut c)) := by
  cases c <;> rfl

/-- A command that may be taken with a fresh tag is carried out, its frame out of the inbox. -/
theorem exec_taking {c : HostCommand} {s : State} {f : Frame} {rest : List Frame} (h : s.Taking c f rest) :
    exec c.instr s = .next (carryOut c f { s with inbox := rest }) := by
  rw [exec_instr, State.serve_taking h]

/-- A row that neither is a reset nor does owed work itself is an event after the owed work. -/
theorem exec_act {c : Instr} (hpower : ∀ e, c ≠ .powerReset e) (hpin : ∀ e, c ≠ .pinReset e) (hdue : c ≠ .dueCheck)
    (htimeout : c ≠ .noticeTimeout) (hgap : c ≠ .gapError) (hreceipt : c ≠ .receipt) :
    ∃ event, ∀ s, exec c s = .next (s.act event) := by
  cases c with
  | powerReset e => exact absurd rfl (hpower e)
  | pinReset e => exact absurd rfl (hpin e)
  | dueCheck => exact absurd rfl hdue
  | noticeTimeout => exact absurd rfl htimeout
  | gapError => exact absurd rfl hgap
  | receipt => exact absurd rfl hreceipt
  | gate1End level => exact ⟨State.endGate1 (level := level), fun _ => rfl⟩
  | scheduledCompletion level => exact ⟨State.completeScheduled (level := level), fun _ => rfl⟩
  | oneShotCompletion level => exact ⟨State.completeOneShot (level := level), fun _ => rfl⟩
  | byteArrival data stopHigh => exact ⟨State.endCharacter (c := ⟨data, stopHigh⟩), fun _ => rfl⟩
  | _ => exact ⟨_, fun _ => rfl⟩

/-- A row that is no reset does nothing to a part held in reset. -/
theorem exec_of_inReset {c : Instr} {s : State} (hs : s.inReset = true) (hpower : ∀ e, c ≠ .powerReset e)
    (hpin : ∀ e, c ≠ .pinReset e) : exec c s = .next s := by
  have held : ∀ event, Host.Outcome.next (ρ := Refusal) (φ := Fault) (s.unlessReset event) = .next s := fun event =>
    congrArg _ (State.unlessReset_of_inReset hs event)
  by_cases hdue : c = .dueCheck
  · exact hdue ▸ held _
  by_cases htimeout : c = .noticeTimeout
  · exact htimeout ▸ held _
  by_cases hgap : c = .gapError
  · exact hgap ▸ held _
  by_cases hreceipt : c = .receipt
  · exact hreceipt ▸ held _
  obtain ⟨event, hevent⟩ := exec_act hpower hpin hdue htimeout hgap hreceipt
  rw [hevent]
  exact held _

/-! ### Owed work (log 4, log 5) -/

@[simp] theorem State.runReceipt_owed (s : State) : s.runReceipt.owed = { s.owed with receipt := none } := by
  unfold State.runReceipt
  split
  · simp
  case h_2 hnone => rw [← hnone]

@[simp] theorem State.runDueCheck_owed (s : State) : s.runDueCheck.owed = { s.owed with dueCheck := false } := by
  unfold State.runDueCheck
  split
  · simp
  case isFalse h => rw [← Bool.eq_false_iff.2 h]

@[simp] theorem State.runTimeouts_owed (s : State) : s.runTimeouts.owed = { s.owed with timeouts := false } := by
  unfold State.runTimeouts State.examineTimeouts
  split
  · dsimp only
    split <;> rfl
  case isFalse h => rw [← Bool.eq_false_iff.2 h]

@[simp] theorem State.runGap_owed (s : State) : s.runGap.owed = { s.owed with gap := false } := by
  unfold State.runGap State.examineGap
  split
  · dsimp only
    split
    · rfl
    all_goals split <;> rfl
  case isFalse h => rw [← Bool.eq_false_iff.2 h]

/-- Once settled, nothing is owed. -/
theorem State.settled_quiet {s : State} (h : s.inReset = false) : s.settled.Quiet := by
  simp [State.Quiet, h, State.settled, Owed.nothing]

/-- An event after the owed work is that event after the settling. -/
theorem State.act_settled {s : State} (h : s.inReset = false) (event : State → State) :
    s.act event = s.settled.act event := by
  rw [State.act_of_quiet (State.settled_quiet h), State.act, State.unlessReset_of_running h]

/-- What a reset event leaves does not depend on what is owed. -/
theorem State.resetEvent_settled (s : State) (cause : ResetCause) (event : ResetEvent) :
    s.settled.resetEvent cause event = s.resetEvent cause event := by
  cases event <;>
    simp [State.resetEvent, State.enterReset, State.hardReset, State.quiesceLine]

/-- Settles O4: the four rows are the four parts of `settled` in its order, and every other row but the resets is an event of
`act`, which settles first. -/
theorem owedWorkComesFirst : Obligations.OwedWorkComesFirst := by
  intro c s hs hdue htimeout hgap hreceipt
  refine ⟨?_, State.settled_quiet hs, State.settled_of_quiet, s.runReceipt, s.runReceipt.runDueCheck,
    s.runReceipt.runDueCheck.runTimeouts, ?_, ?_, ?_, ?_⟩
  · by_cases hpower : ∃ e, c = .powerReset e
    · obtain ⟨e, rfl⟩ := hpower
      exact congrArg Host.Outcome.next (s.resetEvent_settled .power e).symm
    by_cases hpin : ∃ e, c = .pinReset e
    · obtain ⟨e, rfl⟩ := hpin
      exact congrArg Host.Outcome.next (s.resetEvent_settled .pin e).symm
    obtain ⟨event, hevent⟩ := exec_act (fun e he => hpower ⟨e, he⟩) (fun e he => hpin ⟨e, he⟩) hdue htimeout hgap hreceipt
    rw [hevent, hevent, State.act_settled hs]
  all_goals exact congrArg _ (State.unlessReset_of_running (by simp [hs]) _)

/-! ### The conditions of a taking (R161, R162) -/

/-- Settles O36: with one condition unmet `takeCommand` leaves the state alone, whatever the command. -/
theorem commandsWaitForTheirConditions : Obligations.CommandsWaitForTheirConditions := by
  intro s c hs hblocked
  rw [exec_instr, State.serve, State.act_of_quiet hs, State.takeCommand_blocked _ hblocked]

/-- Settles O37: `takeCommand` looks at the tag before it carries any command out. -/
theorem tagInUseComesFirst : Obligations.TagInUseComesFirst := by
  intro s c f rest h htag
  rw [exec_instr, State.serve_tagInUse h htag, State.answer_taken, h.kind]

/-! ### The tick (R22, R23) -/

/-- Settles O8: 1 is added modulo 2^32. -/
theorem tickAdvancesTheCounter : Obligations.TickAdvancesTheCounter := by
  intro s hs
  have hcounter : s.counter + 1 = BitVec.ofNat 32 ((s.counter.toNat + 1) % 2 ^ 32) := by bv_omega
  rw [← hcounter]
  exact congrArg _ (State.act_of_quiet hs State.advanceTick)

/-- A step with no command waiting is one crystal period after the owed work. -/
theorem step_of_pending_nil {s : State} (h : s.pending = []) : step s = .next (s.act State.crystalPeriod) := by
  simp only [step, h, State.idle]

/-- A crystal period short of the 256th advances the divider. -/
theorem State.crystalPeriod_of_lt {s : State} (h : s.divider.toNat < 255) :
    s.crystalPeriod = { s with divider := s.divider + 1 } :=
  if_neg (by bv_omega)

/-- The 256th crystal period is the tick. -/
theorem State.crystalPeriod_of_eq {s : State} (h : s.divider.toNat = 255) : s.crystalPeriod = s.advanceTick :=
  if_pos (by bv_omega)

/-- A run begins with its first step. -/
theorem core_run_succ {s t : State} (h : step s = .next t) (k : Nat) :
    Sys2Proof.core.run (k + 1) s = Sys2Proof.core.run k t := by
  have hstep : Sys2Proof.core.step s = .next t := h
  simp only [Host.Core.run, hstep]

/-- A run goes on from where a shorter one has come. -/
theorem core_run_add {j : Nat} {s t : State} (h : Sys2Proof.core.run j s = .next t) (k : Nat) :
    Sys2Proof.core.run (j + k) s = Sys2Proof.core.run k t := by
  induction j generalizing s with
  | zero =>
    obtain rfl : s = t := Host.Outcome.next.inj h
    rw [Nat.zero_add]
  | succ j ih =>
    rw [Nat.add_right_comm]
    cases hstep : step s with
    | next u =>
      rw [core_run_succ hstep] at h ⊢
      exact ih h
    | fault r => cases r
    | refused r =>
      have hstep : Sys2Proof.core.step s = .refused r := hstep
      simp [Host.Core.run, hstep] at h

/-- Crystal periods short of the tick count up the divider. -/
theorem core_run_periods (k : Nat) {s : State} (hs : s.Quiet) (hpending : s.pending = [])
    (hk : s.divider.toNat + k ≤ 255) :
    Sys2Proof.core.run k s = .next { s with divider := s.divider + BitVec.ofNat 8 k } := by
  induction k generalizing s with
  | zero => simp [Host.Core.run]
  | succ k ih =>
    have hstep : step s = .next { s with divider := s.divider + 1 } := by
      rw [step_of_pending_nil hpending, State.act_of_quiet hs, State.crystalPeriod_of_lt (by omega)]
    rw [core_run_succ hstep, ih (s := { s with divider := s.divider + 1 }) hs hpending (by dsimp only; bv_omega)]
    congr 2
    dsimp only
    bv_omega

/-- Settles O2: the divider counts the steps up to 255, and the step from 255 is the tick. -/
theorem tickEvery256CrystalPeriods : Obligations.TickEvery256CrystalPeriods := by
  have hperiods : ∀ s : State, s.Quiet → s.pending = [] → s.divider = 0 → ∀ k, k ≤ 255 →
      Sys2Proof.core.run k s = .next { s with divider := BitVec.ofNat 8 k } := fun s hs hpending hzero k hk => by
    rw [core_run_periods k hs hpending (by simp [hzero, hk]), hzero]
    simp
  refine ⟨fun s hs hpending hzero => ⟨hperiods s hs hpending hzero, ?_⟩,
    fun s hpending => ⟨fun hreset => ?_, fun hs hlt => ?_, fun hs heq => ?_⟩⟩
  · let t : State := { s with divider := 255 }
    have htick : step t = .next t.advanceTick := by
      rw [step_of_pending_nil (s := t) hpending, State.act_of_quiet (s := t) hs, State.crystalPeriod_of_eq rfl]
    calc Sys2Proof.core.run (255 + 1) s
      _ = Sys2Proof.core.run (0 + 1) t := core_run_add (hperiods s hs hpending hzero 255 le_rfl) 1
      _ = .next t.advanceTick := core_run_succ htick 0
      _ = _ := by rw [hzero]; rfl
  all_goals rw [step_of_pending_nil hpending]
  · exact congrArg _ (State.unlessReset_of_inReset hreset _)
  · rw [State.act, State.unlessReset_of_running hs, State.crystalPeriod_of_lt hlt]
  · rw [State.act, State.unlessReset_of_running hs, State.crystalPeriod_of_eq heq]
    rfl

/-! ### The receiver's examination (R151) -/

/-- Settles O18: 2 is the limit that the raised quiet count is held to. -/
theorem secondQuietTickAbandonsTheFrame : Obligations.SecondQuietTickAbandonsTheFrame := by
  intro s hs t
  have hexec : exec .gapError s = .next s.runGap := congrArg _ (State.unlessReset_of_running hs _)
  have howed : s.owed.gap = true → s.runGap = t.examineGap := fun h => if_pos h
  rw [hexec]
  refine ⟨fun h => ?_, fun h hhunt => ?_, fun h hphase hquiet => ?_, fun h hphase hquiet => ?_⟩
  · simp [State.runGap, h]
  all_goals rw [howed h]; unfold State.examineGap
  · simp [t, hhunt]
  · cases hp : s.receiver.phase with
    | hunt => exact absurd hp hphase
    | header | body => simp [t, hp, hquiet]
  · cases hp : s.receiver.phase with
    | hunt => exact absurd hp hphase
    | header | body => simp [t, hquiet, satInc_half, Receiver.hunting]

/-! ### Resets -/

/-- Settles O5: `afterReset` holds the reset values, and a part held in reset drives no line and takes no other row. -/
theorem hardResetsLeaveTheResetValues : Obligations.HardResetsLeaveTheResetValues := by
  intro pins s after held
  have hafter : ∀ cause, after cause = s.hardReset cause pins := fun _ => rfl
  have hheld : held = s.enterReset := by
    simp [held, after, State.enterReset, State.afterReset, State.quiesceLine, Probe.cleared, Notice.startup,
      Receiver.hunting, ClassSet.empty, Owed.nothing]
  refine ⟨?_, ?_, ?_, ?_, State.inReset_eq_true, fun hreset => ?_⟩
  · rw [hafter]; rfl
  · rw [hafter]; rfl
  · rw [hheld]; rfl
  · rw [hheld]; rfl
  · have hs := State.inReset_eq_true.2 hreset
    exact ⟨(State.lines_of_inReset hs 0).1, fun k => (State.lines_of_inReset hs k).2,
      fun c hpower hpin => exec_of_inReset hs hpower hpin⟩

/-- Settles O6: both leave `afterReset`, with the rate, the lines and the cause that each is given. -/
theorem softResetTakesEffectAtItsReply : Obligations.SoftResetTakesEffectAtItsReply := by
  intro s t tag code r1 r0 hs hsending ht
  obtain rfl := Host.Outcome.next.inj ht
  have hexec : exec .transmissionCompletion s = .next s.completeTransmission := congrArg _ (State.act_of_quiet hs _)
  obtain ⟨hpower, hpin⟩ := State.inReset_eq_false.1 (Prod.mk.inj hs).1
  have hsoft : s.completeTransmission = s.softReset := by simp only [State.completeTransmission, hsending]
  rw [hexec, hsoft]
  simp [State.softReset, State.resetEvent, State.hardReset, State.afterReset, State.quiesceLine, hpower, Notice.startup]

/-- Settles O7: the reset state holds no notice but STARTUP, no entry and no defined probe. -/
theorem resetMeetsTheInvariants : Obligations.ResetMeetsTheInvariants := by
  have hreset : ResetStore State.reset :=
    ⟨rfl, fun i => by simp [State.probe, State.reset, State.afterReset], rfl, rfl, .inl rfl, .inr ⟨_, _, rfl⟩, rfl, rfl, rfl,
      rfl, rfl⟩
  have hstartup : State.reset.notices = [Notice.startup .power false] := rfl
  refine ⟨fun s hpending hpin => ?_, .reset hreset, ?_, .reset hreset, .reset hreset, ?_, ?_, ?_⟩
  · have hends : s.resetEvent .power (.ends ⟨false, false, false, true⟩) = State.reset := by
      simp [State.resetEvent, State.hardReset, State.reset, State.afterReset, hpending, hpin]
    exact congrArg Host.Outcome.next hends
  · simp [State.WithinCapacity, hreset.inbox, hreset.parked, hreset.replies, hreset.probe, Probe.cleared, hstartup,
      State.sentCount, Notice.startup,
      Notice.isSent, Notice.isQueued]
  · simp [State.NoticesLawful, hstartup]
  · simp [State.RetriesLawful, hstartup, Notice.startup]
  · exact fun i => hreset.probe i ▸ .of_none rfl rfl rfl

end Sys2Proof.Machine
end

section
/-! PROOFS. Alignment (R33), the timeout examination (R137), merging at reversion (R122) and ALERT# (R125). -/

namespace Sys2Proof.Machine

/-! ### Alignment (R33) -/

/-- The step from a value to the next of the remainder. -/
def alignGap (first period phase : Nat) : Nat := (phase + (period - first % period)) % period

theorem alignGap_lt {first period phase : Nat} (h : phase < period) : alignGap first period phase < period :=
  Nat.mod_lt _ (by omega)

/-- The gap leads to the remainder. -/
theorem add_alignGap_mod {first period phase : Nat} (h : phase < period) :
    (first + alignGap first period phase) % period = phase := by
  have hlt : first % period < period := Nat.mod_lt _ (by omega)
  have hsum : first + (phase + (period - first % period)) = phase + period * (first / period + 1) := by
    have hdiv := Nat.div_add_mod first period
    rw [Nat.mul_add]
    omega
  rw [alignGap, Nat.add_mod_mod, hsum, Nat.add_mul_mod_self_left, Nat.mod_eq_of_lt h]

/-- No value on the way has the remainder. -/
theorem mod_ne_of_lt_alignGap {first period phase x : Nat} (h : phase < period) (hx : first ≤ x)
    (hlt : x < first + alignGap first period phase) : x % period ≠ phase := fun hmod => by
  obtain ⟨t, rfl⟩ := Nat.exists_eq_add_of_le hx
  have hsame : t ≡ alignGap first period phase [MOD period] :=
    Nat.ModEq.add_left_cancel' first (hmod.trans (add_alignGap_mod h).symm)
  have hgap := alignGap_lt (first := first) h
  have := Nat.ModEq.eq_of_lt_of_lt hsame (by omega) hgap
  omega

theorem align_eq (c : Tick) (period phase : Half) : align c period phase =
    if c.toNat + 1 + alignGap (c.toNat + 1) period.toNat phase.toNat < 2 ^ 32
      then BitVec.ofNat 32 (c.toNat + 1 + alignGap (c.toNat + 1) period.toNat phase.toNat) else phase.setWidth 32 := rfl

/-- Settles O10: the values from c + 1 on are searched up to one period; past 4294967295 the search goes on from 0, where the
phase is the first value of its remainder. -/
theorem alignmentIsTheFirstValueAfter : Obligations.AlignmentIsTheFirstValueAfter := by
  intro c period phase h due
  have hperiod := period.isLt
  have hc := c.isLt
  have hmod := add_alignGap_mod (first := c.toNat + 1) h
  have hgap := alignGap_lt (first := c.toNat + 1) h
  have hnone : ∀ x, c.toNat + 1 ≤ x → x < c.toNat + 1 + alignGap (c.toNat + 1) period.toNat phase.toNat →
      x % period.toNat ≠ phase.toNat := fun x => mod_ne_of_lt_alignGap h
  have hvalue : ∀ k, (c + BitVec.ofNat 32 k).toNat = (c.toNat + k) % 2 ^ 32 := fun k => by simp
  have hdist : (due - c).toNat = (2 ^ 32 - c.toNat + due.toNat) % 2 ^ 32 := BitVec.toNat_sub due c
  have hdue : due = _ := align_eq c period phase
  generalize alignGap (c.toNat + 1) period.toNat phase.toNat = gap at hmod hgap hnone hdue
  clear_value due
  by_cases hwrap : c.toNat + 1 + gap < 2 ^ 32
  · have hnat : due.toNat = c.toNat + 1 + gap := by
      rw [hdue, if_pos hwrap, BitVec.toNat_ofNat, Nat.mod_eq_of_lt hwrap]
    refine ⟨fun hc' => by rw [hc'] at hnat; omega, hnat ▸ hmod, fun k hk hlt => ?_⟩
    rw [hvalue, Nat.mod_eq_of_lt (a := c.toNat + k) (by omega)]
    exact hnone _ (by omega) (by omega)
  · have hnat : due.toNat = phase.toNat := by
      rw [hdue, if_neg hwrap, BitVec.toNat_setWidth, Nat.mod_eq_of_lt (by omega)]
    refine ⟨fun hc' => by rw [hc'] at hnat; omega, by rw [hnat, Nat.mod_eq_of_lt h], fun k hk hlt => ?_⟩
    rw [hvalue]
    by_cases hbefore : c.toNat + k < 2 ^ 32
    · rw [Nat.mod_eq_of_lt hbefore]
      exact hnone _ (by omega) (by omega)
    · rw [Nat.mod_eq_of_lt (a := (c.toNat + k) % 2 ^ 32) (by omega)]
      omega

/-! ### The timeout examination (R137, R139) -/

/-- Settles O13: `timedOut` is the age against the timeout, `revert` the return to QUEUED. -/
theorem timeoutsReturnOldNotices : Obligations.TimeoutsReturnOldNotices := by
  intro s hs old returned done
  have hexec : exec .noticeTimeout s = .next s.runTimeouts := congrArg _ (State.unlessReset_of_running hs _)
  have hold : Notice.timedOut s.counter s.ackTimeout = old := by
    funext n
    cases hd : n.delivery <;> simp [Notice.timedOut, old, hd]
  have howed : s.owed.timeouts = true → s.runTimeouts = done.examineTimeouts := fun h => if_pos h
  rw [hexec]
  refine ⟨fun h => ?_, fun h hnone => ?_, fun h hsome => ?_⟩
  · simp [State.runTimeouts, h]
  · rw [howed h]
    refine congrArg _ (if_neg ?_)
    simpa [done, hold] using hnone
  · rw [howed h]
    refine congrArg _ ((if_pos ?_).trans ?_)
    · simpa [done, hold] using hsome
    · simp only [done, hold]
      rfl

/-! ### ALERT# (R125) -/

theorem State.alertAsserted_iff {s : State} :
    s.alertAsserted = true ↔ s.inReset = false ∧ ∃ n ∈ s.notices, s.holdSet.has n.content.cls = false := by
  simp [State.alertAsserted]

/-- ALERT# depends on the hold, the reset and the classes in the queue alone. -/
theorem State.alertAsserted_congr {s t : State} (hreset : t.inReset = s.inReset) (hheld : t.holdSet = s.holdSet)
    (hcls : ∀ c, (∃ n ∈ t.notices, n.content.cls = c) ↔ ∃ n ∈ s.notices, n.content.cls = c) :
    t.alertAsserted = s.alertAsserted := by
  have hunheld : ∀ l : List Notice, (∃ n ∈ l, s.holdSet.has n.content.cls = false) ↔
      ∃ c, s.holdSet.has c = false ∧ ∃ n ∈ l, n.content.cls = c := fun l => by grind
  rw [Bool.eq_iff_iff, State.alertAsserted_iff, State.alertAsserted_iff, hreset, hheld, hunheld, hunheld]
  simp only [hcls]

/-- A change of notices that keeps their contents in order keeps the classes. -/
theorem cls_iff_of_contents {l m : List Notice} (h : l.map Notice.content = m.map Notice.content) (c : NoticeClass) :
    (∃ n ∈ l, n.content.cls = c) ↔ ∃ n ∈ m, n.content.cls = c := by
  have hmem : ∀ l : List Notice, (∃ n ∈ l, n.content.cls = c) ↔ ∃ d ∈ l.map Notice.content, d.cls = c := by simp
  rw [hmem, hmem, h]

/-- Merging one notice more keeps the classes. -/
theorem mergeStep_cls (kept : List Notice) (n : Notice) (c : NoticeClass) :
    (∃ m ∈ mergeStep kept n, m.content.cls = c) ↔ ∃ m ∈ kept ++ [n], m.content.cls = c := by
  obtain ⟨e, -⟩ | ⟨before, m, after, rfl, -, -, -, hkey, e⟩ := mergeStep_cases kept n
  · rw [e]
  · have hmerged : (m.content.absorb n.content).cls = n.content.cls :=
      NoticeContent.cls_eq_of_key? (NoticeContent.key?_absorb hkey)
    have hcls : m.content.cls = n.content.cls := NoticeContent.cls_eq_of_key? hkey
    rw [e]
    simp only [Notice.mergeIn, List.mem_append, List.mem_cons]
    grind

/-- Merging keeps the classes in the queue. -/
theorem mergeQueued_cls (l : List Notice) (c : NoticeClass) :
    (∃ n ∈ mergeQueued l, n.content.cls = c) ↔ ∃ n ∈ l, n.content.cls = c := by
  suffices ∀ kept, (∃ n ∈ l.foldl mergeStep kept, n.content.cls = c) ↔ ∃ n ∈ kept ++ l, n.content.cls = c by
    exact (this []).trans (by rw [List.nil_append])
  induction l with
  | nil => simp
  | cons x xs ih =>
    intro kept
    have hstep := mergeStep_cls kept x c
    rw [List.foldl_cons, ih]
    simp only [List.mem_append, List.mem_cons, List.not_mem_nil, or_false] at hstep ⊢
    grind

/-- The timeout examination keeps the classes in the queue. -/
theorem State.runTimeouts_cls (s : State) (c : NoticeClass) :
    (∃ n ∈ s.runTimeouts.notices, n.content.cls = c) ↔ ∃ n ∈ s.notices, n.content.cls = c := by
  unfold State.runTimeouts
  split
  case isFalse => rfl
  case isTrue =>
    unfold State.examineTimeouts
    dsimp only
    split
    case isFalse => rfl
    case isTrue =>
      refine (mergeQueued_cls _ c).trans (cls_iff_of_contents ?_ c)
      rw [List.map_map]
      refine List.map_congr_left fun n _ => ?_
      dsimp only [Function.comp_apply]
      split <;> rfl

/-- Settles O60: a start and a timeout change no notice's class, and merging leaves one notice of each class there was. -/
theorem alertFollowsTheUnheldNotices : Obligations.AlertFollowsTheUnheldNotices := by
  refine fun s => ⟨State.alertAsserted_iff, fun hs t ht => ?_, fun hs t ht => ?_, fun t ht => ?_⟩
  · rw [exec_noticeTransmissionStart_of_quiet hs] at ht
    obtain rfl := Host.Outcome.next.inj ht
    obtain e | ⟨before, n, after, hsplit, -, -, -, e⟩ := s.startNotice_cases <;> rw [e]
    exact State.alertAsserted_congr rfl rfl (cls_iff_of_contents (by simp [hsplit]))
  · have hexec : exec .replyTransmissionStart s = .next s.startReply := congrArg _ (State.act_of_quiet hs _)
    obtain rfl := Host.Outcome.next.inj (hexec.symm.trans ht)
    unfold State.startReply
    split <;> rfl
  · obtain rfl := Host.Outcome.next.inj ht
    unfold State.unlessReset
    split
    · rfl
    · exact State.alertAsserted_congr (by simp) (by simp) s.runTimeouts_cls

end Sys2Proof.Machine
end

section
/-! PROOFS. What merging at reversion leaves of the set of a key (R122). -/

namespace Sys2Proof.Machine

/-! ### The first member that a condition names -/

/-- An update of the first member that a condition names, which it then still names, is an update of what is found. -/
theorem find?_updateFirst_same {α : Type} {p : α → Bool} {f : α → α} (hf : ∀ x, p x = true → p (f x) = true) (l : List α) :
    (updateFirst p f l).find? p = (l.find? p).map f := by
  induction l with
  | nil => rfl
  | cons x xs ih =>
    cases hx : p x with
    | true => simp [updateFirst, hx, hf x hx]
    | false => simp [updateFirst, hx, ih]

/-- An update of a member that another condition does not name, before or after, does not change what that finds. -/
theorem find?_updateFirst_other {α : Type} {p q : α → Bool} {f : α → α} (hp : ∀ x, p x = true → q x = false)
    (hf : ∀ x, p x = true → q (f x) = false) (l : List α) : (updateFirst p f l).find? q = l.find? q := by
  induction l with
  | nil => rfl
  | cons x xs ih =>
    cases hx : p x with
    | true => simp [updateFirst, hx, hp x hx, hf x hx]
    | false => simp [updateFirst, hx, List.find?_cons, ih]

/-! ### The kept notice of a key -/

/-- A target keeps its key and stays QUEUED when it takes another of that key in. -/
theorem Notice.isTarget_mergeIn {key : NoticeClass × Fin 32 × Byte} {m n : Notice} (hm : m.isTarget key = true)
    (hn : n.content.key? = some key) : (n.mergeIn m).isTarget key = true := by
  obtain ⟨hq, hk⟩ := Notice.isTarget_iff.1 hm
  exact Notice.isTarget_iff.2 ⟨hq, (NoticeContent.key?_absorb (hk.trans hn.symm)).trans hn⟩

/-- What the next notice in order of creation makes of the kept notice of its key. -/
def keptWith (n : Notice) : Option Notice → Option Notice
  | none => some n
  | some m => some (n.mergeIn m)

/-- One notice more changes the kept notice of its own key, if it is QUEUED, and no other. -/
theorem find?_mergeStep (key : NoticeClass × Fin 32 × Byte) (kept : List Notice) (n : Notice) :
    (mergeStep kept n).find? (Notice.isTarget key) =
      if n.isTarget key = true then keptWith n (kept.find? (Notice.isTarget key)) else kept.find? (Notice.isTarget key) := by
  have happend : (∀ m ∈ kept, n.isTarget key = true → m.isTarget key = false) →
      (kept ++ [n]).find? (Notice.isTarget key) = if n.isTarget key = true
        then keptWith n (kept.find? (Notice.isTarget key)) else kept.find? (Notice.isTarget key) := fun hfirst => by
    rw [List.find?_append]
    split
    case isTrue hn =>
      rw [List.find?_eq_none.2 fun m hm => by simp [hfirst m hm hn]]
      simp [hn, keptWith]
    case isFalse hn => simp [hn]
  cases hkey : n.content.key? with
  | none =>
    have hn : n.isTarget key = false := by simp [Notice.isTarget, hkey]
    simp only [mergeStep, hkey]
    exact happend fun m _ h => by simp [hn] at h
  | some own =>
    simp only [mergeStep, hkey]
    by_cases hmerge : (n.isQueued && kept.any (Notice.isTarget own)) = true
    · obtain ⟨hq, hany⟩ := Bool.and_eq_true_iff.1 hmerge
      rw [if_pos hmerge]
      by_cases hown : own = key
      · subst hown
        obtain ⟨m, hm, hmt⟩ := List.any_eq_true.1 hany
        obtain ⟨first, hfirst⟩ := Option.ne_none_iff_exists'.1 fun h => List.find?_eq_none.1 h m hm hmt
        rw [find?_updateFirst_same fun m hm => Notice.isTarget_mergeIn hm hkey, hfirst,
          if_pos (by simp [Notice.isTarget, hq, hkey])]
        rfl
      · have hother : ∀ m : Notice, m.isTarget own = true → m.isTarget key = false := fun m hm => by
          simp [Notice.isTarget, (Notice.isTarget_iff.1 hm).2, hown]
        rw [find?_updateFirst_other hother fun m hm => hother _ (Notice.isTarget_mergeIn hm hkey),
          if_neg (by simp [Notice.isTarget, hkey, hown])]
    · rw [if_neg hmerge]
      refine happend fun m hm hn => ?_
      obtain ⟨hq, hk⟩ := Notice.isTarget_iff.1 hn
      obtain rfl : own = key := Option.some.inj (hkey.symm.trans hk)
      simp only [Notice.isQueued, hq, decide_true, Bool.true_and, Bool.not_eq_true, List.any_eq_false] at hmerge
      simpa using hmerge m hm

/-- The kept notice of a key is made of the QUEUED notices of that key in order of creation. -/
theorem find?_mergeQueued (key : NoticeClass × Fin 32 × Byte) (l : List Notice) :
    (mergeQueued l).find? (Notice.isTarget key) = (l.filter (Notice.isTarget key)).foldl (fun m n => keptWith n m) none := by
  suffices ∀ kept, (l.foldl mergeStep kept).find? (Notice.isTarget key) =
      (l.filter (Notice.isTarget key)).foldl (fun m n => keptWith n m) (kept.find? (Notice.isTarget key)) from this []
  induction l with
  | nil => exact fun _ => rfl
  | cons x xs ih =>
    intro kept
    rw [List.foldl_cons, ih, find?_mergeStep, List.filter_cons]
    split <;> rfl

/-- The earliest of a set takes the others in, in order of creation. -/
theorem foldl_keptWith (n : Notice) (later : List Notice) :
    later.foldl (fun m x => keptWith x m) (some n) = some (later.foldl (fun m x => x.mergeIn m) n) := by
  induction later generalizing n with
  | nil => rfl
  | cons x xs ih => exact ih (x.mergeIn n)

/-! ### The findings of a merged set -/

/-- Two sums that stop at 255 add up to one. -/
theorem satAdd_min (a : Nat) (x : Byte) :
    satAdd (BitVec.ofNat 8 (min 255 a)) x = BitVec.ofNat 8 (min 255 (a + x.toNat)) := by
  have hx := x.isLt
  apply BitVec.eq_of_toNat_eq
  unfold satAdd
  split
  · simp only [BitVec.toNat_add, BitVec.toNat_ofNat] at *
    omega
  · simp only [BitVec.toNat_allOnes, BitVec.toNat_ofNat] at *
    omega

/-- The suspect flag of a CROSSING. -/
def Notice.crossingSuspect (m : Notice) : Bool :=
  match m.content with
  | .crossing _ _ _ _ _ suspect _ => suspect
  | _ => false

/-- The merged count of a CROSSING. -/
def Notice.crossingMerged (m : Notice) : Nat :=
  match m.content with
  | .crossing _ _ _ _ _ _ count => count.toNat
  | _ => 0

/-- The findings of a set, by its earliest member, its latest and all. -/
def mergedContent (n latest : Notice) (members : List Notice) : NoticeContent :=
  match n.content, latest.content with
  | .crossing i gen previous _ _ _ _, .crossing _ _ _ new value _ _ =>
    .crossing i gen previous new value (members.any Notice.crossingSuspect)
      (BitVec.ofNat 8 (min 255 (members.map Notice.crossingMerged).sum))
  | _, content => content

/-- A notice of the key of a CROSSING is a CROSSING. -/
theorem NoticeContent.exists_crossing {c d : NoticeContent} (hkey : c.key? = d.key?) (hd : d.cls = .crossing) :
    ∃ i gen previous new value suspect merged, c = .crossing i gen previous new value suspect merged := by
  have hc : c.cls = .crossing := (NoticeContent.cls_eq_of_key? hkey).trans hd
  cases c with
  | crossing => exact ⟨_, _, _, _, _, _, _, rfl⟩
  | _ => cases hc

theorem mergedContent_of_not_crossing {n : Notice} (h : n.content.cls ≠ .crossing) (latest : Notice)
    (members : List Notice) : mergedContent n latest members = latest.content := by
  cases hn : n.content with
  | crossing => simp [hn, NoticeContent.cls] at h
  | _ => simp [mergedContent, hn]

theorem NoticeContent.absorb_of_not_crossing {c : NoticeContent} (h : c.cls ≠ .crossing) (d : NoticeContent) :
    c.absorb d = d := by
  cases c with
  | crossing => exact absurd rfl h
  | _ => rfl

/-- A set of one has the findings of its member. -/
theorem mergedContent_self (n : Notice) : mergedContent n n [n] = n.content := by
  by_cases h : n.content.cls = .crossing
  · obtain ⟨i, gen, previous, new, value, suspect, merged, hn⟩ := NoticeContent.exists_crossing rfl h
    have hmerged := merged.isLt
    simp [mergedContent, hn, Notice.crossingSuspect, Notice.crossingMerged,
      Nat.min_eq_right (show merged.toNat ≤ 255 by omega)]
  · exact mergedContent_of_not_crossing h n [n]

/-- The findings of a set that one more notice joins. -/
theorem mergedContent_absorb {n latest x : Notice} (members : List Notice) (hx : x.content.key? = n.content.key?)
    (hlatest : latest.content.key? = n.content.key?) :
    (mergedContent n latest members).absorb x.content = mergedContent n x (members ++ [x]) := by
  by_cases h : n.content.cls = .crossing
  · obtain ⟨_, _, _, _, _, _, _, en⟩ := NoticeContent.exists_crossing rfl h
    obtain ⟨_, _, _, _, _, _, _, ex⟩ := NoticeContent.exists_crossing hx h
    obtain ⟨_, _, _, _, _, _, _, el⟩ := NoticeContent.exists_crossing hlatest h
    simp [mergedContent, en, ex, el, NoticeContent.absorb, satAdd_min, Notice.crossingSuspect, Notice.crossingMerged]
  · have hl : latest.content.cls ≠ .crossing := fun hc => h ((NoticeContent.cls_eq_of_key? hlatest).symm.trans hc)
    rw [mergedContent_of_not_crossing h, mergedContent_of_not_crossing h, NoticeContent.absorb_of_not_crossing hl]

/-- The latest of a set has its key. -/
theorem key?_latest {n : Notice} {later : List Notice} (hkey : ∀ m ∈ later, m.content.key? = n.content.key?) :
    (later.getLast?.getD n).content.key? = n.content.key? := by
  cases hl : later.getLast? with
  | none => rfl
  | some m => exact hkey m (List.mem_of_getLast? hl)

/-- What the earliest of a set comes to with the others taken in. -/
theorem foldl_mergeIn (n : Notice) (later : List Notice) (hkey : ∀ m ∈ later, m.content.key? = n.content.key?) :
    later.foldl (fun m x => x.mergeIn m) n = { n with
      stamp := (later.getLast?.getD n).stamp
      gap := BitVec.ofNat 8 (min 255 ((n :: later).map fun m => m.gap.toNat).sum)
      content := mergedContent n (later.getLast?.getD n) (n :: later) } := by
  induction later using List.reverseRecOn with
  | nil =>
    have hgap := n.gap.isLt
    simp [mergedContent_self, Nat.min_eq_right (show n.gap.toNat ≤ 255 by omega)]
  | append_singleton xs x ih =>
    have hxs : ∀ m ∈ xs, m.content.key? = n.content.key? := fun m hm => hkey m (by simp [hm])
    have hcontent := mergedContent_absorb (n :: xs) (hkey x (by simp)) (key?_latest hxs)
    rw [List.cons_append] at hcontent
    rw [List.foldl_append, ih hxs]
    simp [Notice.mergeIn, satAdd_min, Nat.add_assoc, hcontent]

/-- A notice that is the target of no key is kept as it is. -/
theorem mem_mergeQueued {l : List Notice} {n : Notice} (hn : n ∈ l) (h : n.delivery ≠ .queued ∨ n.content.key? = none) :
    n ∈ mergeQueued l := by
  suffices ∀ kept, n ∈ kept ++ l → n ∈ l.foldl mergeStep kept from this [] hn
  clear hn
  induction l with
  | nil => simp
  | cons x xs ih =>
    intro kept hkept
    refine ih _ ?_
    obtain ⟨e, -⟩ | ⟨before, m, after, rfl, hxq, hxk, hmq, hmk, e⟩ := mergeStep_cases kept x <;> rw [e]
    · simpa using hkept
    · have hm : n ≠ m := by
        rintro rfl
        exact h.elim (fun h => h hmq) fun h => hxk (hmk ▸ h)
      have hx : n ≠ x := by
        rintro rfl
        exact h.elim (fun h => h hxq) fun h => hxk h
      simp only [List.mem_append, List.mem_cons] at hkept ⊢
      tauto

/-- Settles O14: the sets of different keys do not meet, and of each the earliest member takes the others in. -/
theorem mergingKeepsTheEarliestOfEachKey : Obligations.MergingKeepsTheEarliestOfEachKey := by
  refine fun notices => ⟨mergeQueued_sublist notices, mergeQueued_uniqueKeys notices, mergeQueued_of_uniqueKeys,
    fun n hn h => mem_mergeQueued hn h, ?_⟩
  intro before n after hsplit hqueued hsome hbefore later members latest suspect merged
  obtain ⟨key, hkey⟩ := Option.ne_none_iff_exists'.1 hsome
  have htarget : ∀ m : Notice, m.isTarget key = decide (m.delivery = .queued ∧ m.content.key? = n.content.key?) :=
    fun m => by rw [hkey, ← Bool.decide_coe (m.isTarget key)]; exact decide_eq_decide.2 Notice.isTarget_iff
  have hfilter : notices.filter (Notice.isTarget key) = n :: later := by
    rw [funext htarget, hsplit, List.filter_append, List.filter_cons, if_pos (by simp [hqueued]),
      List.filter_eq_nil_iff.2 fun m hm => by simpa using hbefore m hm]
    rfl
  have hlater : ∀ m ∈ later, m.content.key? = n.content.key? := fun m hm => by
    have := (List.mem_filter.1 hm).2
    exact (of_decide_eq_true this).2
  have hkept : (mergeQueued notices).find? (Notice.isTarget key) = some (later.foldl (fun m x => x.mergeIn m) n) := by
    rw [find?_mergeQueued, hfilter]
    exact foldl_keptWith n later
  rw [foldl_mergeIn n later hlater] at hkept
  exact List.mem_of_find?_eq_some hkept

end Sys2Proof.Machine
end

section
/-! PROOFS. What a submission comes to (R114, R116 to R121). -/

namespace Sys2Proof.Machine

/-! ### Sequence numbers (R114) -/

/-- The number found is reached by passing over numbers that are taken. -/
theorem freshSeq_passes (taken : List Half) (fuel : Nat) (n : Half) :
    ∃ k : Nat, freshSeq taken fuel n = n + BitVec.ofNat 16 k ∧ ∀ j, j < k → n + BitVec.ofNat 16 j ∈ taken := by
  induction fuel generalizing n with
  | zero => exact ⟨0, by simp [freshSeq], by simp⟩
  | succ fuel ih =>
    by_cases hn : n ∈ taken
    · obtain ⟨k, hk, hpassed⟩ := ih (n + 1)
      have hadd : ∀ j, n + 1 + BitVec.ofNat 16 j = n + BitVec.ofNat 16 (j + 1) := fun j => by
        rw [BitVec.ofNat_add, BitVec.add_assoc, BitVec.add_comm (BitVec.ofNat 16 j)]
        rfl
      refine ⟨k + 1, by rw [freshSeq, if_pos hn, hk, hadd], fun j hj => ?_⟩
      cases j with
      | zero => simpa using hn
      | succ j => exact hadd j ▸ hpassed j (by omega)
    · exact ⟨0, by simp [freshSeq, hn], by simp⟩

/-- The number given is the first from the next sequence number on that no notice of the queue carries. -/
theorem State.assignSeq_first {s : State} (h : s.notices.length < 65536) :
    (∀ n ∈ s.notices, n.seq ≠ s.assignSeq) ∧ ∃ k : Nat, s.assignSeq = s.nextSeq + BitVec.ofNat 16 k ∧
      ∀ j, j < k → ∃ n ∈ s.notices, n.seq = s.nextSeq + BitVec.ofNat 16 j := by
  have hnew := s.assignSeq_not_mem h
  obtain ⟨k, hk, hpassed⟩ := freshSeq_passes (s.notices.map Notice.seq) s.notices.length s.nextSeq
  exact ⟨fun n hn hseq => hnew (List.mem_map.2 ⟨n, hn, hseq⟩), k, hk, fun j hj => List.mem_map.1 (hpassed j hj)⟩

/-! ### The outcomes -/

/-- A submission has a target exactly if a QUEUED notice has its key. -/
theorem State.hasTarget_iff {s : State} {c : NoticeContent} :
    s.hasTarget c = true ↔ c.key? ≠ none ∧ ∃ n ∈ s.notices, n.delivery = .queued ∧ n.content.key? = c.key? := by
  unfold State.hasTarget
  cases hkey : c.key? with
  | none => simp
  | some key => simp [Notice.isTarget_iff]

/-- The first QUEUED notice of its key takes a submission in. -/
theorem State.submit_of_target {s : State} {c : NoticeContent} {before after : List Notice} {n : Notice}
    (hsplit : s.notices = before ++ n :: after) (hqueued : n.delivery = .queued) (hsome : c.key? ≠ none)
    (hkey : n.content.key? = c.key?) (hbefore : ∀ m ∈ before, m.delivery = .queued → m.content.key? ≠ c.key?) :
    s.submit c = { s with notices := before ++ n.coalesce c s.counter :: after } := by
  obtain ⟨key, hc⟩ := Option.ne_none_iff_exists'.1 hsome
  have htarget : s.hasTarget c = true := State.hasTarget_iff.2 ⟨hsome, n, by simp [hsplit], hqueued, hkey⟩
  have hfirst : ∀ m ∈ before, m.isTarget key = false := fun m hm => by
    rw [← Bool.not_eq_true, Notice.isTarget_iff, ← hc]
    exact fun h => hbefore m hm h.1 h.2
  rw [State.submit, if_pos htarget]
  simp only [State.coalesceNotice, hc, hsplit]
  rw [updateFirst_append _ after hfirst (Notice.isTarget_iff.2 ⟨hqueued, hkey.trans hc⟩)]

/-- Without a target and with room, a notice is created. -/
theorem State.submit_of_room {s : State} {c : NoticeContent} (hno : s.hasTarget c = false) (hroom : s.notices.length < 24) :
    s.submit c = s.appendNotice c := by
  simp [State.submit, hno, hroom]

/-- In a full queue a CONDITION takes the place of the evictable notice created last. -/
theorem State.submit_of_full {s : State} {c : NoticeContent} (hno : s.hasTarget c = false) (hfull : 24 ≤ s.notices.length)
    (hcls : c.cls = .condition) (hany : s.notices.any Notice.evictable = true) : s.submit c = s.evict.appendNotice c := by
  simp [State.submit, hno, Nat.not_lt.2 hfull, hcls, hany]

/-- In a full queue that nothing may leave a submission is lost. -/
theorem State.submit_of_lost {s : State} {c : NoticeContent} (hno : s.hasTarget c = false) (hfull : 24 ≤ s.notices.length)
    (hlost : c.cls ≠ .condition ∨ s.notices.any Notice.evictable = false) : s.submit c = s.countLoss := by
  obtain h | h := hlost <;> simp [State.submit, hno, Nat.not_lt.2 hfull, h]

theorem Notice.evictable_iff {n : Notice} :
    n.evictable = true ↔ n.delivery = .queued ∧ n.content.cls ≠ .condition := by
  simp [Notice.evictable, Notice.isQueued]

/-- Settles O12: the four branches of `submit` in their order. -/
theorem submissionOutcomes : Obligations.SubmissionOutcomes := by
  intro s c numbers
  refine ⟨fun before n after hsplit hqueued hsome hkey hbefore =>
      State.submit_of_target hsplit hqueued hsome hkey hbefore,
    fun _ _ _ _ _ _ _ _ _ _ _ => by rw [NoticeContent.absorb, satAdd_one], fun hnone => ?_⟩
  have hno : s.hasTarget c = false := by
    rw [← Bool.not_eq_true, State.hasTarget_iff]
    rintro ⟨hsome, n, hn, hqueued, hkey⟩
    exact (hnone n hn hqueued).elim hsome fun h => h hkey
  refine ⟨fun hroom => ?_, fun reason before n after hfull hc hsplit hqueued hcls hafter => ?_, fun hfull hlost => ?_⟩
  · exact ⟨s.assignSeq, State.submit_of_room hno hroom, State.assignSeq_first (by omega)⟩
  · have hn : n.evictable = true := Notice.evictable_iff.2 ⟨hqueued, hcls⟩
    have herased : eraseLast Notice.evictable s.notices = before ++ after := by
      rw [hsplit]
      refine eraseLast_append before hn fun m hm => ?_
      rw [← Bool.not_eq_true, Notice.evictable_iff]
      exact fun h => h.2 (hafter m hm h.1)
    have hnotices : s.evict.notices = before ++ after := herased
    have hlen : s.evict.notices.length < 65536 := by
      rw [hsplit, List.length_append, List.length_cons] at hfull
      rw [hnotices, List.length_append]
      omega
    refine ⟨s.evict.assignSeq, hnotices ▸ State.assignSeq_first hlen, ?_⟩
    rw [State.submit_of_full hno hfull.ge (by rw [hc]; rfl) (List.any_eq_true.2 ⟨n, by simp [hsplit], hn⟩), ← hnotices,
      ← satInc_byte, ← satInc_word]
    rfl
  · have hlost : c.cls ≠ .condition ∨ s.notices.any Notice.evictable = false := hlost.imp_right fun h => by
      rw [← Bool.not_eq_true, List.any_eq_true]
      rintro ⟨n, hn, hev⟩
      obtain ⟨hqueued, hcls⟩ := Notice.evictable_iff.1 hev
      exact hcls (h n hn hqueued)
    rw [State.submit_of_lost hno hfull hlost, ← satInc_byte, ← satInc_word]
    rfl

end Sys2Proof.Machine
end

section
/-! PROOFS. The due check over all probes (R34 to R37): what a visit makes of its probe is known before the check, because no
other visit touches that probe, its entries, the engine or a class. -/

namespace Sys2Proof.Machine

/-! ### What a visit finds -/

/-- The definition of probe i if it comes due (R35). -/
def State.dueDefn (s : State) (i : Fin 32) : Option Definition :=
  if (s.probe i).state = .armed ∧ (s.probe i).nextDue = some s.counter then (s.probe i).defn else none

/-- The record that a visit leaves. -/
def State.dueProbe (s : State) (i : Fin 32) : Probe :=
  match s.dueDefn i with
  | some d => if s.runOutstanding i then (s.probe i).overrun d else (s.probe i).advanced d
  | none => s.probe i

/-- The notices that a visit submits. -/
def State.overruns (s : State) (i : Fin 32) : List NoticeContent :=
  match s.dueDefn i with
  | some d => if s.runOutstanding i then overrunFound i d (s.probe i) else []
  | none => []

/-- A visit queues an entry. -/
def State.queuesDue (s : State) (i : Fin 32) : Bool := (s.dueDefn i).isSome && !s.runOutstanding i

/-- The entry of a probe that comes due (R43). -/
def State.dueEntry (s : State) (i : Fin 32) : ScheduledEntry := ⟨i, (s.probe i).generation, s.counter, false, s.elapsed⟩

/-- The due queue that a visit leaves of a due queue. -/
def State.queueDue (s : State) (queue : List DueEntry) (i : Fin 32) : List DueEntry :=
  if s.queuesDue i then insertAhead (s.standsBehind (s.dueEntry i)) (.scheduled (s.dueEntry i)) queue else queue

theorem State.dueDefn_eq_some {s : State} {i : Fin 32} {d : Definition} : s.dueDefn i = some d ↔ s.DueNow i d := by
  unfold State.dueDefn State.DueNow
  split <;> grind

theorem State.runOutstanding_iff {s : State} {i : Fin 32} : s.runOutstanding i = true ↔ s.Outstanding i := by
  have hqueued : s.dueQueue.any (DueEntry.isScheduledOf i) = true ↔ ∃ e, DueEntry.scheduled e ∈ s.dueQueue ∧ e.probe = i := by
    simp only [List.any_eq_true, DueEntry.isScheduledOf_iff]
    grind
  unfold State.runOutstanding State.Outstanding
  rw [Bool.or_eq_true, hqueued]
  refine or_congr_right ?_
  split
  case h_1 e op channel he =>
    simp only [he, Bool.and_eq_true, beq_iff_eq]
    grind
  case h_2 hno =>
    refine iff_of_false (by simp) ?_
    rintro ⟨e, op, channel, he, -⟩
    exact hno e op channel he

/-- A visit is one update of its probe and the due queue, and its notices. -/
theorem State.dueVisit_eq (s : State) (i : Fin 32) : s.dueVisit i = (s.overruns i).foldl State.submit
    { s with probes := s.probes.set i (s.dueProbe i), dueQueue := s.queueDue s.dueQueue i } := by
  cases hdue : s.dueDefn i with
  | none =>
    have hno : ∀ d, ¬ s.DueNow i d := fun d hd => by simp [State.dueDefn_eq_some.2 hd] at hdue
    obtain h | ⟨d, ⟨hd, -⟩, -⟩ | ⟨d, ⟨hd, -⟩, -⟩ := s.dueVisit_cases i
    · rw [h]
      simp [State.dueProbe, State.overruns, State.queueDue, State.queuesDue, hdue, State.probe]
    · exact absurd hd (hno d)
    · exact absurd hd (hno d)
  | some d =>
    have hvisit : s.dueVisit i = (if s.runOutstanding i then s.countOverrun i d else s.queueScheduled i false).advanceDue i d := by
      obtain ⟨harmed, hdefn, hnext⟩ := State.dueDefn_eq_some.1 hdue
      simp only [State.dueVisit, harmed, hdefn, hnext, if_true]
    cases hrun : s.runOutstanding i with
    | true =>
      rw [hvisit, hrun, if_pos rfl, State.countOverrun_advanceDue]
      simp [State.dueProbe, State.overruns, State.queueDue, State.queuesDue, hdue, hrun, State.setProbe]
    | false =>
      rw [hvisit, hrun, if_neg (by simp), State.queueScheduled_advanceDue]
      simp [State.dueProbe, State.overruns, State.queueDue, State.queuesDue, hdue, hrun, State.setProbe,
        State.queueScheduled, State.dueEntry]

/-! ### What other visits leave alone -/

/-- To a visit of probe i the states are alike. -/
structure AlikeTo (i : Fin 32) (s t : State) : Prop where
  probe : t.probe i = s.probe i
  counter : t.counter = s.counter
  elapsed : t.elapsed = s.elapsed
  engine : t.engine = s.engine
  classOf : ∀ j, t.classOf j = s.classOf j
  queued : t.dueQueue.any (DueEntry.isScheduledOf i) = s.dueQueue.any (DueEntry.isScheduledOf i)

namespace AlikeTo

variable {i : Fin 32} {s t : State}

theorem dueDefn (h : AlikeTo i s t) : t.dueDefn i = s.dueDefn i := by
  simp only [State.dueDefn, h.probe, h.counter]

theorem runOutstanding (h : AlikeTo i s t) : t.runOutstanding i = s.runOutstanding i := by
  simp only [State.runOutstanding, h.probe, h.queued, h.engine]

theorem dueProbe (h : AlikeTo i s t) : t.dueProbe i = s.dueProbe i := by
  simp only [State.dueProbe, h.probe, h.dueDefn, h.runOutstanding]

theorem overruns (h : AlikeTo i s t) : t.overruns i = s.overruns i := by
  simp only [State.overruns, h.probe, h.dueDefn, h.runOutstanding]

theorem queueDue (h : AlikeTo i s t) (queue : List DueEntry) : t.queueDue queue i = s.queueDue queue i := by
  have hentry : t.dueEntry i = s.dueEntry i := by simp only [State.dueEntry, h.probe, h.counter, h.elapsed]
  have hqueues : t.queuesDue i = s.queuesDue i := by simp only [State.queuesDue, h.dueDefn, h.runOutstanding]
  rw [State.queueDue, State.queueDue, hentry, hqueues, State.standsBehind_congr h.classOf]

end AlikeTo

theorem State.dueProbe_frame (s : State) (i : Fin 32) :
    s.dueProbe i = { s.probe i with
      nextDue := (s.dueProbe i).nextDue
      overruns := (s.dueProbe i).overruns
      overrunLatch := (s.dueProbe i).overrunLatch } := by
  unfold State.dueProbe
  split
  · split <;> rfl
  · rfl

theorem State.dueProbe_defn (s : State) (i : Fin 32) : (s.dueProbe i).defn = (s.probe i).defn := by
  rw [State.dueProbe_frame]

/-- A visit of another probe leaves a state alike. -/
theorem State.dueVisit_alike (s : State) {i j : Fin 32} (hij : j ≠ i) : AlikeTo j s (s.dueVisit i) := by
  have hprobe : ∀ k, (s.dueVisit i).probe k = (s.setProbe i (s.dueProbe i)).probe k := fun k => by
    rw [State.dueVisit_eq, State.foldl_submit_probe]
    rfl
  refine ⟨by rw [hprobe, State.probe_setProbe_ne _ _ hij], by simp, by simp, by simp, fun k => ?_, ?_⟩
  · have hclass := State.classOf_setProbe (i := i) (p := s.dueProbe i) (s.dueProbe_defn i) k
    rw [← hclass]
    simp only [State.classOf, hprobe]
  · have hqueue : (s.dueVisit i).dueQueue = s.queueDue s.dueQueue i := by
      rw [State.dueVisit_eq, State.foldl_submit_frame]
    rw [hqueue, State.queueDue]
    split
    · have hother : (DueEntry.scheduled (s.dueEntry i)).isScheduledOf j = false := by
        simp [DueEntry.isScheduledOf, State.dueEntry, hij.symm]
      rw [(insertAhead_perm _ _ _).any_eq, List.any_cons, hother, Bool.false_or]
    · rfl

/-! ### All visits -/

/-- Records and due queue may be written before the submissions or after them. -/
theorem State.write_foldl_submit (found : List NoticeContent) (s : State) (probes : Vector Probe 32)
    (queue : List DueEntry) : { found.foldl State.submit s with probes := probes, dueQueue := queue } =
      found.foldl State.submit { s with probes := probes, dueQueue := queue } := by
  rw [State.foldl_submit_congr found (s := s) (t := { s with probes := probes, dueQueue := queue }) rfl rfl rfl rfl rfl,
    State.foldl_submit_frame]

/-- The visits of distinct probes, each by what it finds in the state before the first. -/
theorem State.foldl_dueVisit (ids : List (Fin 32)) (hids : ids.Nodup) (s : State) :
    ids.foldl State.dueVisit s = (ids.flatMap s.overruns).foldl State.submit { s with
      probes := ids.foldl (fun probes (i : Fin 32) => probes.set i (s.dueProbe i)) s.probes
      dueQueue := ids.foldl s.queueDue s.dueQueue } := by
  induction ids generalizing s with
  | nil => rfl
  | cons i ids ih =>
    obtain ⟨hi, hids⟩ := List.nodup_cons.1 hids
    have halike : ∀ j ∈ ids, AlikeTo j s (s.dueVisit i) := fun j hj => s.dueVisit_alike fun h => hi (h ▸ hj)
    rw [List.foldl_cons, ih hids]
    have hfound : ids.flatMap (s.dueVisit i).overruns = ids.flatMap s.overruns :=
      List.flatMap_congr fun j hj => (halike j hj).overruns
    have hprobes : ∀ probes : Vector Probe 32,
        ids.foldl (fun probes (j : Fin 32) => probes.set j ((s.dueVisit i).dueProbe j)) probes =
          ids.foldl (fun probes (j : Fin 32) => probes.set j (s.dueProbe j)) probes := fun probes =>
      List.foldl_ext _ _ _ fun _ j hj => by rw [(halike j hj).dueProbe]
    have hqueue : ∀ queue, ids.foldl (s.dueVisit i).queueDue queue = ids.foldl s.queueDue queue := fun queue =>
      List.foldl_ext _ _ _ fun _ j hj => (halike j hj).queueDue _
    have hwritten : (s.dueVisit i).probes = s.probes.set i (s.dueProbe i) := by
      rw [State.dueVisit_eq, State.foldl_submit_probes]
    have hqueued : (s.dueVisit i).dueQueue = s.queueDue s.dueQueue i := by rw [State.dueVisit_eq, State.foldl_submit_frame]
    rw [hfound, hprobes, hqueue, hwritten, hqueued, State.dueVisit_eq, State.write_foldl_submit, List.flatMap_cons,
      List.foldl_append]
    rfl

/-- The records after all visits. -/
theorem getElem_foldl_set (f : Fin 32 → Probe) (ids : List (Fin 32)) (probes : Vector Probe 32) (j : Fin 32) :
    (ids.foldl (fun probes (i : Fin 32) => probes.set i (f i)) probes)[j] = if j ∈ ids then f j else probes[j] := by
  induction ids generalizing probes with
  | nil => rfl
  | cons i ids ih =>
    rw [List.foldl_cons, ih]
    by_cases hj : j ∈ ids
    · simp [hj]
    · by_cases hji : j = i
      · simp [hji]
      · have hne : ¬ i.val = j.val := fun h => hji (Fin.ext h.symm)
        simp [hj, hji, hne]

/-- Entries already queued keep their order. -/
theorem State.sublist_foldl_queueDue (s : State) (ids : List (Fin 32)) (queue : List DueEntry) :
    queue.Sublist (ids.foldl s.queueDue queue) := by
  induction ids generalizing queue with
  | nil => exact List.Sublist.refl _
  | cons i ids ih =>
    refine List.Sublist.trans ?_ (ih _)
    unfold State.queueDue
    split
    · exact insertAhead_sublist _ _ _
    · exact List.Sublist.refl _

theorem State.mem_queueDue {s : State} {queue : List DueEntry} {i : Fin 32} {x : DueEntry} :
    x ∈ s.queueDue queue i ↔ x ∈ queue ∨ (s.queuesDue i = true ∧ x = .scheduled (s.dueEntry i)) := by
  unfold State.queueDue
  split
  case isTrue h => simp [h, or_comm]
  case isFalse h => simp [h]

/-- The entries that come in are those of the probes that come due without a run outstanding. -/
theorem State.mem_foldl_queueDue {s : State} {ids : List (Fin 32)} {queue : List DueEntry} {x : DueEntry} :
    x ∈ ids.foldl s.queueDue queue ↔
      x ∈ queue ∨ ∃ i ∈ ids, s.queuesDue i = true ∧ x = .scheduled (s.dueEntry i) := by
  induction ids generalizing queue with
  | nil => simp
  | cons i ids ih => simp [ih, State.mem_queueDue, or_assoc]

/-- They come in in order, as none of their probes has an entry. -/
theorem State.pairwise_foldl_queueDue {s : State} {ids : List (Fin 32)} {queue : List DueEntry} (hids : ids.Nodup)
    (hno : ∀ i ∈ ids, s.queuesDue i = true → ∀ e, .scheduled e ∈ queue → e.probe ≠ i) (h : queue.Pairwise s.MayPrecede) :
    (ids.foldl s.queueDue queue).Pairwise s.MayPrecede := by
  induction ids generalizing queue with
  | nil => exact h
  | cons i ids ih =>
    obtain ⟨hi, hids⟩ := List.nodup_cons.1 hids
    refine ih hids (fun j hj hqueues e he => ?_) ?_
    · obtain he | ⟨-, he⟩ := State.mem_queueDue.1 he
      · exact hno j (List.mem_cons_of_mem _ hj) hqueues e he
      · obtain rfl : e = s.dueEntry i := by simpa using he
        rintro rfl
        exact hi hj
    · unfold State.queueDue
      split
      case isTrue hqueues => exact State.insertScheduled_pairwise h fun e he => hno i (by simp) hqueues e he
      case isFalse => exact h

/-- All that a check writes may be written before the submissions or after them. -/
theorem State.writeCheck_foldl_submit (found : List NoticeContent) (s : State) (probes : Vector Probe 32)
    (queue : List DueEntry) (owed : Owed) :
    found.foldl State.submit { s with probes := probes, dueQueue := queue, owed := owed } =
      { found.foldl State.submit s with probes := probes, dueQueue := queue, owed := owed } := by
  rw [State.foldl_submit_congr found (s := s) (t := { s with probes := probes, dueQueue := queue, owed := owed })
    rfl rfl rfl rfl rfl, State.foldl_submit_frame found s]

/-! ### The due check -/

theorem Probe.advanced_of_due {p : Probe} {c : Tick} (h : p.nextDue = some c) (d : Definition) :
    p.advanced d = { p with nextDue := some (c + d.period.setWidth 32) } := by
  simp only [Probe.advanced, h, Option.map_some]

theorem Probe.overrun_of_due {p : Probe} {c : Tick} (h : p.nextDue = some c) (d : Definition) :
    p.overrun d = { p with
      nextDue := some (c + d.period.setWidth 32)
      overruns := satInc p.overruns
      overrunLatch := p.overrunLatch || d.notify.overrun } := by
  rw [Probe.overrun, Probe.advanced_of_due h]

/-- A visit reports an overrun. -/
def State.reportsOverrun (s : State) (i : Fin 32) : Bool := !(s.overruns i).isEmpty

theorem State.overruns_eq (s : State) (i : Fin 32) : s.overruns i = if s.reportsOverrun i = true
    then [.overrun i (s.probe i).generation (satInc (s.probe i).overruns)] else [] := by
  unfold State.reportsOverrun State.overruns overrunFound
  split
  · split
    · split <;> rfl
    · rfl
  · rfl

theorem State.reportsOverrun_iff {s : State} {i : Fin 32} : s.reportsOverrun i = true ↔
    ∃ d, s.DueNow i d ∧ s.Outstanding i ∧ d.notify.overrun = true ∧ (s.probe i).overrunLatch = false := by
  simp only [← State.dueDefn_eq_some, ← State.runOutstanding_iff]
  unfold State.reportsOverrun State.overruns overrunFound
  split
  case h_1 d hd =>
    simp only [hd, Option.some.injEq, exists_eq_left']
    split
    case isTrue hrun =>
      split
      case isTrue h => simp [hrun, h]
      case isFalse h => simpa [hrun] using h
    case isFalse hrun => simp [hrun]
  case h_2 hd => simp [hd]

/-- The notices of all visits are those of the overruns reported. -/
theorem State.flatMap_overruns (s : State) (ids : List (Fin 32)) : ids.flatMap s.overruns =
    (ids.filter s.reportsOverrun).map fun i => .overrun i (s.probe i).generation (satInc (s.probe i).overruns) := by
  induction ids with
  | nil => rfl
  | cons i ids ih =>
    rw [List.flatMap_cons, State.overruns_eq, ih, List.filter_cons]
    split <;> simp

theorem State.dueProbe_of_outstanding {s : State} {i : Fin 32} {d : Definition} (hd : s.DueNow i d) (hrun : s.Outstanding i) :
    s.dueProbe i = (s.probe i).overrun d := by
  simp only [State.dueProbe, State.dueDefn_eq_some.2 hd, State.runOutstanding_iff.2 hrun, if_true]

theorem State.dueProbe_of_free {s : State} {i : Fin 32} {d : Definition} (hd : s.DueNow i d) (hrun : ¬ s.Outstanding i) :
    s.dueProbe i = (s.probe i).advanced d := by
  have hrun : ¬ s.runOutstanding i = true := fun h => hrun (State.runOutstanding_iff.1 h)
  simp only [State.dueProbe, State.dueDefn_eq_some.2 hd, if_neg hrun]

theorem State.dueProbe_of_none {s : State} {i : Fin 32} (hd : ∀ d, ¬ s.DueNow i d) : s.dueProbe i = s.probe i := by
  have hnone : s.dueDefn i = none := Option.eq_none_iff_forall_ne_some.2 fun d h => hd d (State.dueDefn_eq_some.1 h)
  simp only [State.dueProbe, hnone]

theorem State.queuesDue_iff {s : State} {i : Fin 32} :
    s.queuesDue i = true ↔ ∃ d, s.DueNow i d ∧ ¬ s.Outstanding i := by
  simp only [← State.dueDefn_eq_some, ← State.runOutstanding_iff, State.queuesDue, Bool.and_eq_true,
    Option.isSome_iff_exists, Bool.not_eq_true', Bool.not_eq_true]
  exact ⟨fun ⟨⟨d, hd⟩, h⟩ => ⟨d, hd, h⟩, fun ⟨d, hd, h⟩ => ⟨⟨d, hd⟩, h⟩⟩

/-- The due check in RUNNING: the visits of all probes in ascending order. -/
theorem State.dueCheckNow_of_running {s : State} (h : s.scheduler = .running) :
    ∃ probes : Vector Probe 32, (∀ i : Fin 32, probes[i] = s.dueProbe i) ∧
      s.dueCheckNow = (((List.finRange 32).filter s.reportsOverrun).map fun i =>
          .overrun i (s.probe i).generation (satInc (s.probe i).overruns)).foldl State.submit
        { s with probes := probes, dueQueue := (List.finRange 32).foldl s.queueDue s.dueQueue } :=
  ⟨(List.finRange 32).foldl (fun probes (i : Fin 32) => probes.set i (s.dueProbe i)) s.probes,
    fun i => (getElem_foldl_set _ _ _ i).trans (if_pos (List.mem_finRange i)),
    by rw [State.dueCheckNow, if_pos h, State.foldl_dueVisit _ (List.nodup_finRange 32), State.flatMap_overruns]⟩

/-- Settles O9: the check is the visits of all probes in ascending order, each by what the tick found. -/
theorem dueCheckServesEveryDueProbe : Obligations.DueCheckServesEveryDueProbe := by
  intro s hs
  let u : State := { s with owed := { s.owed with dueCheck := false } }
  have hexec : exec .dueCheck s = .next s.runDueCheck := congrArg _ (State.unlessReset_of_running hs _)
  have howed : s.owed.dueCheck = true → s.runDueCheck = u.dueCheckNow := fun h => if_pos h
  rw [hexec]
  refine ⟨fun h => ?_, fun h hstopped => ?_, ?_⟩
  · simp [State.runDueCheck, h]
  · rw [howed h]
    exact congrArg _ (if_neg hstopped)
  intro h hrunning count
  obtain ⟨probes, hprobes, hcheck⟩ := State.dueCheckNow_of_running (s := u) hrunning
  generalize hreporting : (List.finRange 32).filter u.reportsOverrun = reporting at hcheck
  generalize hqueue : (List.finRange 32).foldl u.queueDue u.dueQueue = queue at hcheck
  let found : List NoticeContent := reporting.map fun i =>
    .overrun i (s.probe i).generation (satInc (s.probe i).overruns)
  obtain ⟨t, ht⟩ : ∃ t, t = u.dueCheckNow := ⟨_, rfl⟩
  have hwritten : t = { found.foldl State.submit s with probes := probes, dueQueue := queue, owed := u.owed } :=
    (ht.trans hcheck).trans (State.writeCheck_foldl_submit found s probes queue u.owed)
  have htprobes : t.probes = probes := by rw [hwritten]
  have htqueue : t.dueQueue = queue := by rw [hwritten]
  have hprobe : ∀ i, t.probe i = u.dueProbe i := fun i => by rw [State.probe, htprobes, hprobes]
  have hcount : ∀ i, satInc (s.probe i).overruns = count i := fun i => satInc_half _
  refine ⟨t, reporting, by rw [howed h, ht], ?_, fun i => ?_, ?_, fun i d hd hrun => ?_, fun i d hd hrun => ⟨?_, ?_⟩,
    fun i hd => ?_, ?_, fun hordered => ?_, fun x hx => ?_⟩
  · rw [← hreporting]
    exact (List.pairwise_lt_finRange 32).sublist List.filter_sublist
  · rw [← hreporting, List.mem_filter, State.reportsOverrun_iff]
    exact and_iff_right (List.mem_finRange i)
  · have hfold : reporting.foldl (fun v i => v.submit (.overrun i (s.probe i).generation (count i))) s =
        found.foldl State.submit s := by
      simp only [found, hcount, List.foldl_map]
    rw [hfold, htprobes, htqueue]
    exact hwritten
  · have ⟨_, _, hnext⟩ := hd
    rw [hprobe, State.dueProbe_of_outstanding (s := u) hd hrun, ← hcount]
    exact Probe.overrun_of_due hnext d
  · have ⟨_, _, hnext⟩ := hd
    rw [hprobe, State.dueProbe_of_free (s := u) hd hrun]
    exact Probe.advanced_of_due hnext d
  · rw [htqueue, ← hqueue]
    exact State.mem_foldl_queueDue.2 (.inr ⟨i, List.mem_finRange i, State.queuesDue_iff.2 ⟨d, hd, hrun⟩, rfl⟩)
  · rw [hprobe]
    exact State.dueProbe_of_none (s := u) hd
  · rw [htqueue, ← hqueue]
    exact State.sublist_foldl_queueDue u _ _
  · rw [htqueue, ← hqueue]
    refine State.pairwise_congr (s := s) (fun e _ => ?_)
      (State.pairwise_foldl_queueDue (s := u) (List.nodup_finRange 32) ?_ hordered)
    · have hdefn : (t.probe e.probe).defn = (s.probe e.probe).defn := by
        rw [hprobe]
        exact u.dueProbe_defn e.probe
      simp only [State.classOf, hdefn]
    · intro i _ hqueues e he hei
      obtain ⟨d, hd, hrun⟩ := State.queuesDue_iff.1 hqueues
      exact hrun (.inl ⟨e, he, hei⟩)
  · rw [htqueue, ← hqueue] at hx
    obtain hx | ⟨i, -, hqueues, hx⟩ := State.mem_foldl_queueDue.1 hx
    · exact .inl hx
    · obtain ⟨d, hd, hrun⟩ := State.queuesDue_iff.1 hqueues
      exact .inr ⟨i, d, hd, hrun, hx⟩

end Sys2Proof.Machine
end

section
/-! PROOFS. The measurement engine: conversion, gates and raw verdicts (R51, R52, R66 to R69), the settling step (R72), takes,
QUIESCE, stale completions and one-shots (R49 to R59). -/

namespace Sys2Proof.Machine

/-! ### Conversion and gates (R51, R52) -/

theorem convert_toNat (level : Level) : (convert level).toNat = min 4095 level.toNat := by
  rw [convert, BitVec.toNat_ofNat]
  exact Nat.mod_eq_of_lt (by omega)

/-- Within the range the code is the level. -/
theorem convert_of_range {level : Int} (hlo : 0 ≤ level) (hhi : level ≤ 4095) : ((convert level).toNat : Int) = level := by
  rw [convert_toNat]
  omega

/-- Settles O25: `min 4095` with `Int.toNat` is the clamp. -/
theorem gate1RecordsItsAnswer : Obligations.Gate1RecordsItsAnswer := by
  intro level
  have hconvert := convert_toNat level
  refine ⟨fun h => ?_, fun h => ?_, fun h h' => ?_, fun s x upper lower channel hs he => ?_⟩
  · exact BitVec.eq_of_toNat_eq (hconvert.trans (by rw [Int.toNat_of_nonpos h]; rfl))
  · have h : (4095 : Int) ≤ level := h
    exact BitVec.eq_of_toNat_eq (hconvert.trans (show min 4095 level.toNat = 4095 by omega))
  · exact convert_of_range h h'
  · refine congrArg _ ((State.act_of_quiet hs _).trans ?_)
    simp only [State.endGate1, he, gateAnswer]

/-! ### Raw verdicts (R66 to R69) -/

theorem Window.wellFormed_iff {w : Window} : w.wellFormed = true ↔
    w.low.toNat ≤ w.high.toNat ∧ w.hysteresis.toNat ≤ w.high.toNat - w.low.toNat ∧ 1 ≤ w.settle ∧ w.settle ≤ 8 := by
  simp [Window.wellFormed, and_assoc]

/-- A code is above the upper level exactly if it is classified ABOVE. -/
theorem Window.upperLevel_lt_iff (w : Window) (c : Verdict) (v : Code) : (w.upperLevel c).toNat < v.toNat ↔
    w.high.toNat < v.toNat ∨ (c = .above ∧ w.high.toNat - w.hysteresis.toNat < v.toNat) := by
  have hhigh := w.high.isLt
  unfold Window.upperLevel
  split
  case isTrue hc =>
    rw [BitVec.toNat_ofNat, Nat.mod_eq_of_lt (by omega)]
    simp only [hc, true_and]
    omega
  case isFalse hc => simp [hc]

/-- The first code that is not below: low, or low + h under BELOW. -/
def Window.floor (w : Window) (c : Verdict) : Nat :=
  if c = .below then w.low.toNat + w.hysteresis.toNat else w.low.toNat

theorem Window.lowerLevel_eq (w : Window) (c : Verdict) :
    w.lowerLevel c = if w.floor c = 0 then none else some (BitVec.ofNat 12 (w.floor c - 1)) := rfl

theorem Window.lt_floor_iff (w : Window) (c : Verdict) (v : Code) : v.toNat < w.floor c ↔
    v.toNat < w.low.toNat ∨ (c = .below ∧ v.toNat < w.low.toNat + w.hysteresis.toNat) := by
  unfold Window.floor
  split
  case isTrue hc =>
    simp only [hc, true_and]
    omega
  case isFalse hc => simp [hc]

/-- The raw verdict by the two comparison levels. -/
theorem Window.classify_eq (w : Window) (c : Verdict) (v : Code) : w.classify c v =
    if (w.upperLevel c).toNat < v.toNat then .above else if v.toNat < w.floor c then .below else .inside := by
  simp only [Window.classify, Window.upperLevel_lt_iff, Window.lt_floor_iff]

theorem Window.floor_le_high {w : Window} (h : w.wellFormed = true) (c : Verdict) : w.floor c ≤ w.high.toNat := by
  obtain ⟨hlow, hhyst, -, -⟩ := Window.wellFormed_iff.1 h
  unfold Window.floor
  split <;> omega

/-- Settles O26: gate 1 compares with the upper level, and gate 2 with the code next below the floor. -/
theorem windowAndLevelRunsAgree : Obligations.WindowAndLevelRunsAgree := by
  intro w c level h op
  have hhigh := w.high.isLt
  have hfloor := Window.floor_le_high h c
  rw [Window.classify_eq]
  simp only [op, gateAnswer, Window.lowerLevel_eq]
  by_cases habove : (w.upperLevel c).toNat < (convert level).toNat
  · simp [habove, Operation.result?]
  · by_cases hzero : w.floor c = 0
    · simp [habove, hzero, Operation.result?]
    · have hlower : (BitVec.ofNat 12 (w.floor c - 1)).toNat = w.floor c - 1 := by
        rw [BitVec.toNat_ofNat]
        exact Nat.mod_eq_of_lt (by omega)
      by_cases hbelow : (convert level).toNat < w.floor c
      · have hgate : ¬ w.floor c - 1 < (convert level).toNat := by omega
        simp only [habove, hzero, hbelow, Operation.result?, gateAnswer, hlower, hgate, if_true, if_false, reduceCtorEq]
      · have hgate : w.floor c - 1 < (convert level).toNat := by omega
        simp only [habove, hzero, hbelow, Operation.result?, gateAnswer, hlower, hgate, if_true, if_false]

theorem nextCount_same (r : RawVerdict) (n : Nat) : nextCount (some ⟨r, n⟩) r = n + 1 := by
  simp [nextCount]

theorem nextCount_other {k : Option Candidate} {r : RawVerdict} (h : ∀ n, k ≠ some ⟨r, n⟩) : nextCount k r = 1 := by
  cases k with
  | none => rfl
  | some k =>
    obtain ⟨verdict, count⟩ := k
    have hne : verdict ≠ r := fun he => h count (by rw [he])
    simp [nextCount, hne]

/-- A raw verdict that is the confirmed one settles nothing, and ends the candidacy. -/
theorem settleVerdict_of_eq (settle : Nat) {c : Verdict} (k : Option Candidate) {r : RawVerdict} (hc : c = r.toVerdict) :
    settleVerdict settle c k r = (c, none) := by
  have hknown : c ≠ .unknown := by
    rw [hc]
    cases r <;> simp [RawVerdict.toVerdict]
  rw [settleVerdict_eq, if_neg hknown, if_pos hc]

/-- Settles O27: the two thresholds by the confirmed verdict, and the settling step by the candidate it finds. -/
theorem classificationAndSettling : Obligations.ClassificationAndSettling := by
  refine ⟨fun w c v h => ?_, fun settle c k r hsettle => ⟨fun hc => ?_, fun hc => ?_, fun hc hr => ⟨fun n hk => ?_, fun hk => ?_⟩⟩⟩
  · intro high low hyst
    simp only [Window.classify]
    refine ⟨fun hc => ?_, fun hc => ?_, fun hc => ?_⟩
    · obtain rfl | rfl := hc <;> simp [high, low]
    · subst hc
      have hbelow : v.toNat < w.low.toNat ∨ v.toNat < w.low.toNat + w.hysteresis.toNat ↔ v.toNat < low + hyst := by omega
      simp [high, hbelow]
    · subst hc
      have habove : w.high.toNat < v.toNat ∨ w.high.toNat - w.hysteresis.toNat < v.toNat ↔ high - hyst < v.toNat := by
        omega
      simp [low, habove]
  · rw [settleVerdict_eq, if_pos hc]
  · exact settleVerdict_of_eq settle k hc
  · rw [settleVerdict_eq, if_neg hc, if_neg hr, hk, nextCount_same]
  · rw [settleVerdict_eq, if_neg hc, if_neg hr, nextCount_other hk]
    simp only [eq_comm]

/-! ### Takes (R49, R50) -/

/-- Settles O24: the branches of `takeEntry` and `chooseOperation`. -/
theorem takeStartsTheHeadOfTheQueue : Obligations.TakeStartsTheHeadOfTheQueue := by
  intro s hs
  have hexec : exec .take s = .next s.takeEntry := congrArg _ (State.act_of_quiet hs _)
  rw [hexec]
  refine ⟨?_, fun h => ?_⟩
  · intro x rest d hidle hfront hdefn windowRun
    have htake : s.takeEntry =
        { s with dueQueue := rest, engine := .busy ⟨x, chooseOperation x (s.probe x.probe) d, d.channel⟩ } := by
      simp only [State.takeEntry, hidle, hfront, hdefn]
    rw [htake]
    cases x with
    | oneShot => rfl
    | scheduled e => cases hstyle : d.style <;> simp only [chooseOperation, hstyle] <;> rfl
  · refine congrArg _ ?_
    unfold State.takeEntry
    split
    case h_1 hidle hfront => exact h.elim (absurd hidle) fun h => by simp [hfront] at h
    case h_2 => rfl

/-! ### The drain completion (R31) -/

theorem State.completeDrain_of_not {s : State} (h : s.scheduler ≠ .draining) : s.completeDrain = s := if_neg h

/-- In DRAINING the scheduler stops and the awaited PAUSEs are answered. -/
theorem State.completeDrain_of_draining {s : State} (h : s.scheduler = .draining) (hlinks : s.LinksDistinct) :
    s.completeDrain = { s with scheduler := .stopped }.answerPauses (.counter s.counter) :=
  (if_pos h).trans (State.fixOutcomes_isPause (s := { s with scheduler := .stopped }) hlinks _)

/-- With slots for all, every PAUSE is answered and leaves the list. -/
theorem State.answerPauses_of_slots {s : State} (body : ReplyBody) (hawaited : ∀ p ∈ s.parked, p.outcome = .awaited)
    (hslots : s.replies.length + s.parked.length ≤ 8) : s.answerPauses body = { s with
      parked := s.parked.filter fun p => !p.isPause
      replies := s.replies ++ (s.parked.filter ParkedEntry.isPause).map fun p => ⟨p.tag, 0x21, body⟩ } := by
  have hpauses : (s.parked.filter fun p => p.isPause && p.awaited) = s.parked.filter ParkedEntry.isPause :=
    List.filter_congr fun p hp => by simp [ParkedEntry.awaited, hawaited p hp]
  have hall : s.parked.all ParkedEntry.awaited = true := by
    simpa [ParkedEntry.awaited] using hawaited
  have hlen : (s.parked.filter ParkedEntry.isPause).length ≤ 8 - s.replies.length :=
    (List.length_filter_le _ _).trans (by omega)
  have hkept : (s.parked.filter fun p => decide (p ∉ s.parked.filter ParkedEntry.isPause)) =
      s.parked.filter fun p => !p.isPause :=
    List.filter_congr fun p hp => by simp [hp]
  simp only [State.answerPauses, hpauses, hall, if_true, List.take_of_length_le hlen, List.drop_of_length_le hlen, hkept]
  simp

/-! ### QUIESCE (R57 to R59) -/

theorem State.linkAwaited_iff {s : State} {link : Nat} :
    s.linkAwaited link = true ↔ ∃ p ∈ s.parked, p.link = link ∧ p.outcome = .awaited := by
  simp [State.linkAwaited, ParkedEntry.awaited]

/-- Settles O23: the branches of `quiesce` and `abandon`; the engine's state plays no part in a drain completion. -/
theorem quiesceAbandonsTheOperation : Obligations.QuiesceAbandonsTheOperation := by
  intro s hs on
  have hon : exec .quiesceAsserted s = .next s.quiesce := congrArg _ (State.act_of_quiet hs _)
  have hoff : exec .quiesceReleased s = .next s.unquiesce := congrArg _ (State.act_of_quiet hs _)
  let t : State := { s with engine := .quiesced }
  have hbusy : ∀ op, s.engine = .busy op → s.quiesce = (t.abandon op).submit (.condition .quiesceOn) := fun op he => by
    simp only [State.quiesce, he]
    rfl
  rw [hon, hoff]
  refine ⟨fun he => ?_, fun e op channel he hst => ?_, fun e op channel he hst hlinks => ?_, fun e op channel he haw => ?_,
    fun e op channel he haw => ?_, fun he => ?_, fun he => ?_, fun he => ?_⟩
  · simp only [State.quiesce, he]
    rfl
  · have habandon : t.abandon ⟨.scheduled e, op, channel⟩ = t := State.completeDrain_of_not (s := t) hst
    rw [hbusy _ he, habandon]
  · have habandon : t.abandon ⟨.scheduled e, op, channel⟩ =
        { t with scheduler := .stopped }.answerPauses (.counter s.counter) :=
      State.completeDrain_of_draining (s := t) hst hlinks
    rw [hbusy _ he, habandon]
    rfl
  · have habandon : t.abandon ⟨.oneShot e, op, channel⟩ = { t with dueQueue := .oneShot e :: s.dueQueue } :=
      if_pos (State.linkAwaited_iff.2 haw)
    rw [hbusy _ he, habandon]
  · have habandon : t.abandon ⟨.oneShot e, op, channel⟩ = t := if_neg fun h => haw (State.linkAwaited_iff.1 h)
    rw [hbusy _ he, habandon]
  · simp only [State.quiesce, he]
  · simp only [State.unquiesce, he]
  · cases hengine : s.engine with
    | quiesced => exact absurd hengine he
    | idle | busy => simp only [State.unquiesce, hengine]

/-! ### Scheduled completions (R53) -/

theorem exec_scheduledCompletion {s : State} (hs : s.Quiet) (level : Level) :
    exec (.scheduledCompletion level) s = .next (s.completeScheduled level) := congrArg _ (State.act_of_quiet hs _)

/-- A run counts if its probe is ARMED under the run's generation. -/
theorem State.completeScheduled_counted {s : State} {level : Level} {e : ScheduledEntry} {op : Operation} {channel : Fin 17}
    {d : Definition} {r : RunResult} (he : s.engine = .busy ⟨.scheduled e, op, channel⟩) (hr : op.result? level = some r)
    (harmed : (s.probe e.probe).state = .armed) (hgen : (s.probe e.probe).generation = e.generation)
    (hdefn : (s.probe e.probe).defn = some d) :
    s.completeScheduled level = ({ s with engine := .idle }.countRun e d r).completeDrain := by
  have hcounted : ({ s with engine := .idle } : State).countedDefn e = some d := (if_pos ⟨harmed, hgen⟩).trans hdefn
  simp only [State.completeScheduled, he, hr, hcounted]

/-- A stale run leaves an IDLE engine, and the drain completion if there is one. -/
theorem State.completeScheduled_stale {s : State} {level : Level} {e : ScheduledEntry} {op : Operation} {channel : Fin 17}
    {r : RunResult} (he : s.engine = .busy ⟨.scheduled e, op, channel⟩) (hr : op.result? level = some r)
    (hstale : (s.probe e.probe).state ≠ .armed ∨ (s.probe e.probe).generation ≠ e.generation) :
    s.completeScheduled level = { s with engine := .idle }.completeDrain := by
  have hcounted : ({ s with engine := .idle } : State).countedDefn e = none :=
    if_neg fun h => hstale.elim (· h.1) (· h.2)
  simp only [State.completeScheduled, he, hr, hcounted]

/-- Settles O29: a stale completion comes to its drain completion, and that to R164. -/
theorem staleCompletionsAndDrains : Obligations.StaleCompletionsAndDrains := by
  intro s level e op channel r hs he hr hstale
  rw [exec_scheduledCompletion hs, State.completeScheduled_stale he hr hstale]
  let t : State := { s with engine := .idle }
  refine ⟨fun hst => ?_, fun hst hlinks => ?_, fun hst hlinks hawaited hslots => ?_⟩
  · exact congrArg _ (State.completeDrain_of_not (s := t) hst)
  all_goals rw [State.completeDrain_of_draining (s := t) hst hlinks]
  exact congrArg _ (State.answerPauses_of_slots (s := { t with scheduler := .stopped }) _ hawaited hslots)

/-! ### One-shots (R54, R164, R165) -/

theorem Health.isSuspect_eq (h : Health) : h.isSuspect = decide (h ≠ .good) := by
  cases h <;> rfl

/-- Settles O34: the entry of the link is the one whose outcome is fixed. -/
theorem oneShotAnswersItsMeasure : Obligations.OneShotAnswersItsMeasure := by
  intro s level e op channel hs he
  have hexec : exec (.oneShotCompletion level) s = .next ({ s with engine := .idle }.fixOutcomes
      (fun p => p.link = e.link) (.measured e.probe (convert level) s.health.isSuspect)) := by
    refine congrArg _ ((State.act_of_quiet hs _).trans ?_)
    simp only [State.completeOneShot, he]
  rw [hexec, Health.isSuspect_eq]
  have hone : ∀ before p after, s.parked = before ++ p :: after → (∀ q ∈ before ++ after, q.link ≠ e.link) →
      p.link = e.link → p.outcome = .awaited → _ := fun before p after hsplit hother hlink hawaited =>
    State.fixOutcomes_one (s := { s with engine := .idle }) (which := fun p => p.link = e.link)
      (.measured e.probe (convert level) (decide (s.health ≠ .good))) hsplit hawaited (by simpa using hlink)
      fun q hq => ⟨fun _ => by simpa using hother q hq, hlink ▸ hother q hq⟩
  refine ⟨fun before p after hsplit hother hlink hcommand hawaited hall hslot => ?_,
    fun before p after hsplit hother hlink hawaited hwaits => ?_, fun hnone => ?_⟩
  · rw [hone before p after hsplit hother hlink hawaited, if_pos ⟨hslot, hall⟩, hcommand]
    rfl
  · rw [hone before p after hsplit hother hlink hawaited, if_neg]
    rintro ⟨hslot, hall⟩
    obtain hfull | ⟨q, hq, hfixed⟩ := hwaits
    · exact absurd hslot (by simpa using hfull)
    · exact hfixed (hall q hq)
  · rw [State.fixOutcomes_none]
    intro p hp hawaited
    simpa using fun hlink => hnone p hp hlink hawaited

/-- The waiting entry with the smallest number is the one fixed first. -/
theorem firstWaiting_of_least {before after : List ParkedEntry} {p : ParkedEntry} {n : Nat} {body : ReplyBody}
    (hp : p.outcome = .fixed n body) (hleast : ∀ q ∈ before ++ after, ∀ m b, q.outcome = .fixed m b → n < m) :
    firstWaiting (before ++ p :: after) = some (p, n, body) := by
  induction before with
  | nil =>
    simp only [List.nil_append, firstWaiting, hp]
    cases hrest : firstWaiting after with
    | none => rfl
    | some found =>
      obtain ⟨q, m, b⟩ := found
      obtain ⟨hq, hfixed⟩ := firstWaiting_mem hrest
      have hlt := hleast q (by simpa using hq) m b hfixed
      simp [ParkedEntry.firstFixed, Nat.not_lt.2 hlt.le]
  | cons x before ih =>
    have hrest := ih fun q hq => hleast q (by simp only [List.cons_append, List.mem_cons]; exact .inr hq)
    simp only [List.cons_append, firstWaiting, hrest]
    cases hx : x.outcome with
    | awaited => rfl
    | fixed m b =>
      have hlt := hleast x (by simp) m b hx
      simp [ParkedEntry.firstFixed, hlt]

theorem firstWaiting_eq_none {l : List ParkedEntry} (h : ∀ p ∈ l, p.outcome = .awaited) : firstWaiting l = none := by
  cases hl : firstWaiting l with
  | none => rfl
  | some found =>
    obtain ⟨p, n, body⟩ := found
    obtain ⟨hp, hfixed⟩ := firstWaiting_mem hl
    simp [h p hp] at hfixed

/-- Settles O35: `firstWaiting` finds the smallest number, and the links of the others keep them in the list. -/
theorem waitingOutcomesAreQueuedInOrder : Obligations.WaitingOutcomesAreQueuedInOrder := by
  intro s hs
  have hexec : exec .parkedReplyQueued s = .next s.queueParked := congrArg _ (State.act_of_quiet hs _)
  rw [hexec]
  refine ⟨fun before p after n body hsplit hfixed hother hslot => ?_, fun h => ?_⟩
  · have hfirst : firstWaiting s.parked = some (p, n, body) :=
      hsplit ▸ firstWaiting_of_least hfixed fun q hq => (hother q hq).2
    have hkept : s.parked.filter (fun q => q.link ≠ p.link) = before ++ after := by
      have hstay : ∀ l : List ParkedEntry, (∀ q ∈ l, q.link ≠ p.link) → l.filter (fun q => q.link ≠ p.link) = l :=
        fun l hl => List.filter_eq_self.2 fun q hq => by simpa using hl q hq
      rw [hsplit, List.filter_append, List.filter_cons, if_neg (by simp), hstay before fun q hq => (hother q (by simp [hq])).1,
        hstay after fun q hq => (hother q (by simp [hq])).1]
    have hqueue : s.queueParked = (s.unpark p.link).queueReply ⟨p.tag, p.command.code, body⟩ := by
      simp only [State.queueParked, hfirst]
      exact if_pos (decide_eq_true hslot)
    rw [hqueue, State.unpark, hkept]
    cases p.command <;> rfl
  · refine congrArg _ ?_
    obtain h | h := h
    · simp only [State.queueParked, firstWaiting_eq_none h]
    · have hslot : s.replySlot = false := decide_eq_false (Nat.not_lt.2 h)
      unfold State.queueParked
      split
      · rw [hslot]; rfl
      · rfl

end Sys2Proof.Machine
end

section
/-! PROOFS. Counted runs (R53, R65 to R81, R86 to R89, R97 to R101): each is `runCounted` of the record and the notices that its
kind of run comes to. -/

namespace Sys2Proof.Machine

/-! ### A counted run in general -/

/-- The submissions and the drain completion of a run leave the due queue that the run wrote. -/
theorem State.runCounted_eq (s : State) (i : Fin 32) (d : Definition) (q : Probe) (record : HistoryRecord)
    (found : List NoticeContent) (queue : List DueEntry) (hlinks : s.scheduler = .draining → s.LinksDistinct) :
    ((found ++ watermarkFound i d q).foldl State.submit
      { s with engine := .idle, probes := s.probes.set i (q.withRecord d record), dueQueue := queue }).completeDrain =
      { s.runCounted i d q record found with dueQueue := queue } := by
  let written : State := { s with engine := .idle, probes := s.probes.set i (q.withRecord d record) }
  let t := (found ++ watermarkFound i d q).foldl State.submit written
  have hqueue : (found ++ watermarkFound i d q).foldl State.submit { written with dueQueue := queue } =
      { t with dueQueue := queue } := by
    rw [State.foldl_submit_congr _ (s := written) (t := { written with dueQueue := queue }) rfl rfl rfl rfl rfl]
    simp only [t]
    rw [State.foldl_submit_frame _ written]
  have hst : t.scheduler = s.scheduler := State.foldl_submit_scheduler _ _
  have hcounter : t.counter = s.counter := by
    simp only [t]
    rw [State.foldl_submit_frame]
  have hparked : t.parked = s.parked := by
    simp only [t]
    rw [State.foldl_submit_frame]
  have hrun : s.runCounted i d q record found =
      if s.scheduler = .draining then { t with scheduler := .stopped }.answerPauses (.counter s.counter) else t := rfl
  rw [hqueue, hrun]
  by_cases hd : s.scheduler = .draining
  · have hl : ({ t with dueQueue := queue } : State).LinksDistinct := by
      have := hlinks hd
      unfold State.LinksDistinct at this ⊢
      rwa [hparked]
    rw [if_pos hd, State.completeDrain_of_draining (s := { t with dueQueue := queue }) (hst.trans hd) hl, hcounter]
    rfl
  · rw [if_neg hd, State.completeDrain_of_not (s := { t with dueQueue := queue }) (by rw [hst]; exact hd)]

/-- Writing the due queue that stands changes nothing. -/
theorem State.with_dueQueue {t : State} {queue : List DueEntry} (h : t.dueQueue = queue) :
    { t with dueQueue := queue } = t := by
  rw [← h]

theorem State.runCounted_dueQueue (s : State) (i : Fin 32) (d : Definition) (q : Probe) (record : HistoryRecord)
    (found : List NoticeContent) : (s.runCounted i d q record found).dueQueue = s.dueQueue := by
  simp only [State.runCounted]
  split
  · simp only [State.answerPauses]
    rw [State.foldl_submit_frame]
  · rw [State.foldl_submit_frame]

/-- A run of probe `e.probe` is in flight, will count and yield `r`. -/
structure State.Counts (s : State) (level : Level) (e : ScheduledEntry) (d : Definition) (r : RunResult) : Prop where
  quiet : s.Quiet
  flight : ∃ op channel, s.engine = .busy ⟨.scheduled e, op, channel⟩ ∧ op.result? level = some r
  links : s.scheduler = .draining → s.LinksDistinct
  armed : (s.probe e.probe).state = .armed
  generation : (s.probe e.probe).generation = e.generation
  defn : (s.probe e.probe).defn = some d

/-- What a counted run comes to. -/
theorem State.Counts.exec_eq {s : State} {level : Level} {e : ScheduledEntry} {d : Definition} {r : RunResult}
    (h : s.Counts level e d r) : exec (.scheduledCompletion level) s =
      .next { { s with health := s.healthAfter r }.runCounted e.probe d ((s.probe e.probe).afterRun d r) (s.recordAfter e d r)
        (s.found e.probe d r) with dueQueue := s.queueAfter e.probe d r } := by
  obtain ⟨op, channel, he, hr⟩ := h.flight
  rw [exec_scheduledCompletion h.quiet, State.completeScheduled_counted he hr h.armed h.generation h.defn, State.countRun_eq,
    ← State.runCounted_eq { s with health := s.healthAfter r } e.probe d _ _ _ _ h.links]
  rfl

/-- What a counted run without a follow-up comes to. -/
theorem State.Counts.exec_eq_of_not_follows {s : State} {level : Level} {e : ScheduledEntry} {d : Definition} {r : RunResult}
    (h : s.Counts level e d r) (hf : s.follows e.probe d r = false) : exec (.scheduledCompletion level) s =
      .next ({ s with health := s.healthAfter r }.runCounted e.probe d ((s.probe e.probe).afterRun d r) (s.recordAfter e d r)
        (s.found e.probe d r)) := by
  have hqueue : s.queueAfter e.probe d r = s.dueQueue := if_neg (by simp [hf])
  rw [h.exec_eq, hqueue]
  exact congrArg _ (State.with_dueQueue (State.runCounted_dueQueue _ _ _ _ _ _))

/-! ### The record after each kind of run -/

theorem Probe.countDown_eq (p : Probe) : p.countDown = { p with
    mode := match p.mode with
      | some (.escalated n) => if n ≤ 1 then some .watching else some (.escalated (n - 1))
      | mode => mode } := by
  obtain ⟨_, _, _, _, _, _, _, _, mode, _, _, _, _, _⟩ := p
  cases mode with
  | none => rfl
  | some mode =>
    cases mode with
    | watching => rfl
    | escalated n => by_cases h : n ≤ 1 <;> simp [Probe.countDown, h]

theorem Probe.countCode_eq (p : Probe) (v : Code) : p.countCode v = { p with
    runs := if p.runs = 65535 then 65535 else p.runs + 1
    lastValue := some v } := by
  rw [Probe.countCode, satInc_half]

theorem Probe.afterLevel_of_none {d : Definition} (hw : d.style.window? = none) {p : Probe} (hmode : p.mode = none)
    (v : Code) : p.afterLevel d v = { p with
      runs := if p.runs = 65535 then 65535 else p.runs + 1
      lastValue := some v } := by
  simp only [Probe.afterLevel, hw, Probe.countCode_eq, Probe.countDown_eq, hmode]

theorem Probe.afterLevel_of_some {d : Definition} {w : Window} (hw : d.style.window? = some w) (p : Probe) (v : Code) :
    p.afterLevel d v =
      let settled := settleVerdict w.settle p.confirmed p.candidate (w.classify p.confirmed v)
      { p with
        confirmed := settled.1
        candidate := settled.2
        mode := match p.mode with
          | some (.escalated n) => if n ≤ 1 then some .watching else some (.escalated (n - 1))
          | mode => mode
        runs := if p.runs = 65535 then 65535 else p.runs + 1
        lastValue := some v } := by
  simp only [Probe.afterLevel, hw, Probe.countCode_eq, Probe.countDown_eq, Probe.settleBy_frame]

theorem Probe.afterWindow_of_some {d : Definition} {w : Window} (hw : d.style.window? = some w) (p : Probe)
    (raw : RawVerdict) : p.afterWindow d raw =
      let settled := settleVerdict w.settle p.confirmed p.candidate raw
      { p with
        mode := match p.escalates d raw with | some n => some (.escalated n) | none => p.mode
        confirmed := settled.1
        candidate := settled.2
        runs := if p.runs = 65535 then 65535 else p.runs + 1 } := by
  simp only [Probe.afterWindow, hw, Probe.countGates, Probe.settleBy_frame, satInc_half]
  cases p.escalates d raw <;> rfl

/-! ### LEVEL runs without a window -/

theorem Style.window?_level_none {st : Style} (h : st = .level none) : st.window? = none := by
  rw [h]
  rfl

/-- A counted LEVEL run without a window. -/
theorem exec_levelRun {s : State} {level : Level} {e : ScheduledEntry} {d : Definition}
    (h : s.Counts level e d (.level (convert level))) (hstyle : d.style = .level none)
    (hmode : (s.probe e.probe).mode = none) :
    exec (.scheduledCompletion level) s = .next (s.runCounted e.probe d
      { s.probe e.probe with
        runs := if (s.probe e.probe).runs = 65535 then 65535 else (s.probe e.probe).runs + 1
        lastValue := some (convert level) }
      ⟨s.counter, .level (convert level) none, s.health ≠ .good, e.followUp⟩ []) := by
  have hw := Style.window?_level_none hstyle
  rw [h.exec_eq_of_not_follows rfl]
  simp only [State.healthAfter, Probe.afterRun, Probe.afterLevel_of_none hw hmode, State.recordAfter, State.dataOf, hw,
    State.found, Health.isSuspect_eq]
  rfl

/-- Outside DRAINING a run comes to its record and its notices. -/
theorem State.runCounted_of_not_draining {s : State} (h : s.scheduler ≠ .draining) (i : Fin 32) (d : Definition) (q : Probe)
    (record : HistoryRecord) (found : List NoticeContent) : s.runCounted i d q record found =
      (found ++ watermarkFound i d q).foldl State.submit
        { s with engine := .idle, probes := s.probes.set i (q.withRecord d record) } := by
  rw [State.runCounted, if_neg h]
  rfl

/-- Settles O28: short of the watermark the append is the record alone. -/
theorem countedLevelRunIsRecorded : Obligations.CountedLevelRunIsRecorded := by
  intro s level e channel d hs he hlinks harmed hgen hdefn hstyle hmode p record q full
  have hrun := exec_levelRun (level := level) ⟨hs, ⟨_, _, he, rfl⟩, hlinks, harmed, hgen, hdefn⟩ hstyle hmode
  refine ⟨fun hst hdepth hshort => ?_, hrun⟩
  have hnone : watermarkFound e.probe d q = [] := if_neg fun h => hshort h.2.1
  have hd : d.depth ≠ 0 := by omega
  have hfill : (p.ring.length + 1 == d.watermark) = false := beq_eq_false_iff_ne.2 hshort
  have hrecord : q.withRecord d record = { q with
      overrunLatch := false
      ring := (if full then p.ring.drop 1 else p.ring) ++ [record]
      overwritten := if full then if p.overwritten = 65535 then 65535 else p.overwritten + 1 else p.overwritten } := by
    by_cases hfull : full
    · have hroom : ¬ p.ring.length < d.depth := Nat.not_lt.2 hfull
      simp [Probe.withRecord, q, hd, hfull, hroom]
    · have hroom : p.ring.length < d.depth := Nat.lt_of_not_le hfull
      simp [Probe.withRecord, q, hd, hfull, hroom, hfill]
  rw [hrun, State.runCounted_of_not_draining hst, ← hrecord]
  exact congrArg _ (by rw [List.nil_append, hnone, List.foldl_nil])

/-- Settles O31: the fill comes to the watermark with the flag clear. -/
theorem watermarkIsReported : Obligations.WatermarkIsReported := by
  intro s level e channel d hs he hst harmed hgen hdefn hstyle hmode hfill hdepth hclear p t
  have hrun := exec_levelRun (level := level) ⟨hs, ⟨_, _, he, rfl⟩, fun h => absurd h hst, harmed, hgen, hdefn⟩ hstyle hmode
  have hroom : p.ring.length < d.depth := Nat.lt_of_succ_le (hfill.trans_le hdepth)
  rw [hrun, State.runCounted_of_not_draining hst]
  have hdepth0 : d.depth ≠ 0 := by omega
  let q : Probe := { p with
    runs := if p.runs = 65535 then 65535 else p.runs + 1
    lastValue := some (convert level) }
  have hrecord : q.withRecord d ⟨s.counter, .level (convert level) none, s.health ≠ .good, e.followUp⟩ = { q with
      overrunLatch := false
      ring := p.ring ++ [⟨s.counter, .level (convert level) none, s.health ≠ .good, e.followUp⟩]
      watermarkReached := true } := by
    have hreached : (p.ring.length + 1 == d.watermark) = true := beq_iff_eq.2 hfill
    simp [Probe.withRecord, q, hdepth0, hroom, hreached]
  rw [hrecord]
  refine ⟨fun hquiet => ?_, fun hnotify => ?_⟩
  · have hnone : watermarkFound e.probe d q = [] := if_neg fun h => by simp [hquiet] at h
    rw [hnone]
    rfl
  · have hone : watermarkFound e.probe d q = [.watermark e.probe p.generation d.watermark d.depth] :=
      if_pos ⟨hroom, hfill, hclear, hnotify⟩
    rw [hone]
    rfl

/-! ### Runs with a window -/

/-- A WINDOW run escalates no probe of style WINDOW, none that is not WATCHING, and none whose confirmed verdict is unknown or
found again (R78). -/
theorem Probe.escalates_eq_none {p : Probe} {d : Definition} {w : Window} {raw : RawVerdict}
    (h : d.style = .window w ∨ p.mode ≠ some .watching ∨ p.confirmed = .unknown ∨ p.confirmed = raw.toVerdict) :
    p.escalates d raw = none := by
  unfold Probe.escalates
  split
  case h_1 hstyle hmode =>
    refine if_neg fun hc => ?_
    obtain h | h | h | h := h
    · simp [hstyle] at h
    · exact h hmode
    · exact hc.1 h
    · exact hc.2 h
  case h_2 => rfl

/-- Settles O30: without an escalation the record is settled and counted, and a WINDOW run leaves the last value. -/
theorem countedRunReportsItsMove : Obligations.CountedRunReportsItsMove := by
  intro s level e op channel d w value raw hs he hlinks harmed hgen hdefn hw p hrun settled q record notified
  obtain ⟨rfl, rfl, rfl⟩ | ⟨hr, rfl, hcalm⟩ := hrun
  · have hcounts : s.Counts level e d (.level (convert level)) := ⟨hs, ⟨_, _, he, rfl⟩, hlinks, harmed, hgen, hdefn⟩
    have hafter : p.afterRun d (.level (convert level)) = q := by
      rw [Probe.afterRun, Probe.afterLevel_of_some hw]
      cases hmode : p.mode with
      | none => simp [q, settled, hmode]
      | some mode => cases mode <;> simp [q, settled, hmode]
    rw [hcounts.exec_eq_of_not_follows rfl, hafter]
    have hrecord : s.recordAfter e d (.level (convert level)) = record := by
      simp only [State.recordAfter, State.dataOf, hw, State.healthAfter, Health.isSuspect_eq]
      rfl
    have hfound : s.found e.probe d (.level (convert level)) = moveFound e.probe d p q
        (w.classify p.confirmed (convert level)) (some (convert level)) (s.health ≠ .good) := by
      rw [← hafter, ← Health.isSuspect_eq]
      simp only [State.found, hw]
      rfl
    rw [hrecord, hfound]
    rfl
  · have hcounts : s.Counts level e d (.window raw) := ⟨hs, ⟨_, _, he, hr⟩, hlinks, harmed, hgen, hdefn⟩
    have hescalates : p.escalates d raw = none := Probe.escalates_eq_none hcalm
    have hafter : p.afterRun d (.window raw) = q := by
      rw [Probe.afterRun, Probe.afterWindow_of_some hw, hescalates]
      rfl
    have hfollows : s.follows e.probe d (.window raw) = false := by
      have hnone : (s.probe e.probe).escalates d raw = none := hescalates
      simp [State.follows, hnone]
    rw [hcounts.exec_eq_of_not_follows hfollows, hafter]
    have hrecord : s.recordAfter e d (.window raw) = record := by
      simp only [State.recordAfter, State.dataOf, State.healthAfter, Health.isSuspect_eq]
      rfl
    have hfound : s.found e.probe d (.window raw) = moveFound e.probe d p q raw none (s.health ≠ .good) := by
      rw [← hafter, ← Health.isSuspect_eq]
      rfl
    rw [hrecord, hfound]
    rfl

/-! ### CHECK runs -/

/-- Settles O32. -/
theorem countedCheckMovesTheHealth : Obligations.CountedCheckMovesTheHealth := by
  intro s level e channel d hs he hlinks harmed hgen hdefn hstyle p v passes judged
  have hcounts : s.Counts level e d (.check (convert level)) := ⟨hs, ⟨_, _, he, rfl⟩, hlinks, harmed, hgen, hdefn⟩
  have hchecks : checkPasses s.tolerance (convert level) = decide passes := rfl
  have hrun : exec (.scheduledCompletion level) s = .next (judged (s.health.afterCheck (decide passes))
      (healthFound s.health.isSuspect (s.health.afterCheck (decide passes)).isSuspect)) := by
    rw [hcounts.exec_eq_of_not_follows rfl]
    simp only [State.healthAfter, State.recordAfter, State.dataOf, State.found, Probe.afterRun, Probe.countCode_eq, hchecks,
      Health.isSuspect_eq, judged, decide_not]
    rfl
  rw [hrun]
  refine ⟨fun hh hp => ?_, fun hh hp => ?_, fun hh hp => ?_, fun hh hp => ?_, fun hh hp => ?_⟩
  · rw [hh, decide_eq_true hp]; rfl
  · rw [hh, decide_eq_false hp]; rfl
  · rw [hh, decide_eq_true hp]; rfl
  · rw [hh, decide_eq_true hp]; rfl
  · rw [decide_eq_false hp]
    cases hhealth : s.health with
    | good => exact absurd hhealth hh
    | suspect one => cases one <;> rfl

/-! ### Escalation (R78 to R81) -/

theorem Probe.escalates_eq_some {p : Probe} {d : Definition} {w : Window} {n : Nat} {raw : RawVerdict}
    (hstyle : d.style = .adaptive w n) (hmode : p.mode = some .watching) (hknown : p.confirmed ≠ .unknown)
    (hmoved : p.confirmed ≠ raw.toVerdict) : p.escalates d raw = some n := by
  simp [Probe.escalates, hstyle, hmode, hknown, hmoved]

/-- Settles O33: the follow-up entry is queued by R45; a LEVEL run that finds the confirmed verdict settles nothing. -/
theorem escalationRisesAndRunsDown : Obligations.EscalationRisesAndRunsDown := by
  intro s level e op channel d w confirmRuns hs he p harmed hgen hdefn hstyle runs
  have hw : d.style.window? = some w := by rw [hstyle]; rfl
  refine ⟨fun raw hr hmode hknown hmoved hlinks => ?_, fun n hop hst hdepth hmode hn hfound => ?_⟩
  · intro settled t
    have hcounts : s.Counts level e d (.window raw) := ⟨hs, ⟨_, _, he, hr⟩, hlinks, harmed, hgen, hdefn⟩
    have hescalates : (s.probe e.probe).escalates d raw = some confirmRuns :=
      Probe.escalates_eq_some hstyle hmode hknown hmoved
    have ht : { s with health := s.healthAfter (.window raw) }.runCounted e.probe d ((s.probe e.probe).afterRun d (.window raw))
        (s.recordAfter e d (.window raw)) (s.found e.probe d (.window raw)) = t := by
      have hafter : (s.probe e.probe).afterRun d (.window raw) = { p with
          mode := some (.escalated confirmRuns), confirmed := settled.1, candidate := settled.2, runs := runs } := by
        rw [Probe.afterRun, Probe.afterWindow_of_some hw, hescalates]
      have hfound : s.found e.probe d (.window raw) = if settled.1 ≠ p.confirmed ∧ d.notify.crossing = true then
          [.crossing e.probe p.generation p.confirmed raw none (s.health ≠ .good) 1] else [] := by
        have hmove : s.found e.probe d (.window raw) =
            moveFound e.probe d p ((s.probe e.probe).afterRun d (.window raw)) raw none s.health.isSuspect := rfl
        rw [hmove, hafter, Health.isSuspect_eq, moveFound, if_neg hknown]
      have hrecord : s.recordAfter e d (.window raw) = ⟨s.counter, .window raw, s.health ≠ .good, e.followUp⟩ := by
        simp only [State.recordAfter, State.dataOf, State.healthAfter, Health.isSuspect_eq]
      rw [hafter, hfound, hrecord]
      rfl
    have hfollows : s.follows e.probe d (.window raw) = decide (s.scheduler = .running) := by
      simp [State.follows, hescalates]
    refine ⟨fun hst => ?_, fun hst => ⟨(s.queueScheduled e.probe true).dueQueue, ?_, ?_, ?_, ?_, fun hordered hnone => ?_⟩⟩
    · rw [hcounts.exec_eq_of_not_follows (hfollows.trans (decide_eq_false hst)), ht]
    · have hqueue : s.queueAfter e.probe d (.window raw) = (s.queueScheduled e.probe true).dueQueue :=
        if_pos (hfollows.trans (decide_eq_true hst))
      rw [hcounts.exec_eq, hqueue, ht]
    · exact insertAhead_sublist _ _ _
    · exact length_insertAhead _ _ _
    · rw [← hgen]
      exact mem_insertAhead.2 (.inl rfl)
    · exact State.insertScheduled_pairwise hordered fun y hy hye => hnone _ hy (by simp [DueEntry.isScheduledOf, hye])
  · subst hop
    have hcounts : s.Counts level e d (.level (convert level)) :=
      ⟨hs, ⟨_, _, he, rfl⟩, fun h => absurd h hst, harmed, hgen, hdefn⟩
    have hsettled : settleVerdict w.settle p.confirmed p.candidate (w.classify p.confirmed (convert level)) =
        (p.confirmed, none) := settleVerdict_of_eq _ _ hfound
    have hafter : (s.probe e.probe).afterRun d (.level (convert level)) = { p with
        candidate := none
        mode := if n = 1 then some .watching else some (.escalated (n - 1))
        runs := runs, lastValue := some (convert level) } := by
      have hone : n ≤ 1 ↔ n = 1 := by omega
      rw [Probe.afterRun, Probe.afterLevel_of_some hw, hsettled, hmode]
      simp only [hone]
      rfl
    have hnone : s.found e.probe d (.level (convert level)) = [] := by
      have hmove : s.found e.probe d (.level (convert level)) = moveFound e.probe d p
          ((s.probe e.probe).afterRun d (.level (convert level))) (w.classify p.confirmed (convert level))
          (some (convert level)) s.health.isSuspect := by
        simp only [State.found, hw]
        rfl
      rw [hmove, hafter]
      exact if_neg fun h => h.1 rfl
    have hwatermark : ∀ q, watermarkFound e.probe d q = [] := fun q => if_neg fun h => by simp [hdepth] at h
    have hrecord : ∀ (q : Probe) record, q.withRecord d record = { q with overrunLatch := false } := fun q record => by
      simp [Probe.withRecord, hdepth]
    rw [hcounts.exec_eq_of_not_follows rfl,
      State.runCounted_of_not_draining (s := { s with health := s.healthAfter (.level (convert level)) }) hst, hafter, hnone,
      hwatermark, hrecord]
    rfl

end Sys2Proof.Machine
end

section
/-! PROOFS. The host's commands on probes: DEFINE, ARM, DISARM, DELETE, SET_LIMITS (Chapter 1) and MEASURE (03, 3.6). -/

namespace Sys2Proof.Machine

/-! ### Commands on one probe -/

/-- A command on a probe that may be taken and names probe i is carried out on it. -/
theorem exec_onProbe {c : HostCommand} {s : State} {f : Frame} {rest : List Frame} {i : Fin 32} (h : s.Taking c f rest)
    (hid : f.names i) {onProbe : Frame → Fin 32 → State → State} (hc : carryOut c = fun f => State.onProbe f (onProbe f)) :
    exec c.instr s = .next (onProbe f i { s with inbox := rest }) := by
  rw [exec_taking h, hc]
  exact congrArg _ (State.onProbe_names hid _ _)

/-! ### DEFINE (R6, R11) -/

/-- The fields of a DEFINE payload, most significant byte first (Table 10-5). -/
theorem defineFields_bytes (b0 b1 b2 b3 b4 b5 b6 b7 b8 b9 b10 b11 b12 b13 b14 b15 b16 : Byte) :
    defineFields [b0, b1, b2, b3, b4, b5, b6, b7, b8, b9, b10, b11, b12, b13, b14, b15, b16] =
      { channel := b1, style := BitVec.ofNat 4 (b2.toNat / 16), cls := BitVec.ofNat 4 (b2.toNat % 16)
        period := b3 ++ b4, phase := b5 ++ b6, high := b7 ++ b8, low := b9 ++ b10, hysteresis := b11, settle := b12
        confirmRuns := b13, depth := b14, watermark := b15, notify := b16 } := by
  have hstyle : b2.extractLsb' 4 4 = BitVec.ofNat 4 (b2.toNat / 16) := by
    apply BitVec.eq_of_toNat_eq
    simp [BitVec.extractLsb'_toNat, Nat.shiftRight_eq_div_pow]
  have hcls : b2.extractLsb' 0 4 = BitVec.ofNat 4 (b2.toNat % 16) := by
    apply BitVec.eq_of_toNat_eq
    simp [BitVec.extractLsb'_toNat]
  rw [← hstyle, ← hcls]
  rfl

/-- The record of a probe just defined, field by field. -/
theorem Probe.define_eq (p : Probe) (d : Definition) : p.define d =
    { state := .defined, generation := p.generation + 1, defn := some d, nextDue := none, overruns := 0
      overrunLatch := false, confirmed := .unknown, candidate := none
      mode := match d.style with | .adaptive _ _ => some .watching | _ => none
      lastValue := none, runs := 0, ring := [], overwritten := 0, watermarkReached := false } := by
  have hmode : d.style.confirmRuns?.map (fun _ => AdaptiveMode.watching) =
      match d.style with | .adaptive _ _ => some .watching | _ => none := by
    cases d.style <;> rfl
  rw [Probe.define, hmode]
  rfl

section
variable {s : State} {f : Frame} {i : Fin 32} {d : Definition}

theorem State.defineProbe_of_not_free (h : (s.probe i).state ≠ .free) :
    s.defineProbe f i = s.answer f (.wrongState (s.probe i).state) := if_pos h

theorem State.defineProbe_of_error {k : Byte} (h : (s.probe i).state = .free)
    (hk : checkDefinition (defineFields f.payload) = .error k) : s.defineProbe f i = s.answer f (.badValue k) := by
  simp [State.defineProbe, h, hk]

theorem State.defineProbe_of_no_room (h : (s.probe i).state = .free)
    (hd : checkDefinition (defineFields f.payload) = .ok d) (hroom : s.freeCount < d.depth) :
    s.defineProbe f i = s.answer f (.noRoom s.freeCount) := by
  simp [State.defineProbe, h, hd, hroom]

theorem State.defineProbe_of_room (h : (s.probe i).state = .free)
    (hd : checkDefinition (defineFields f.payload) = .ok d) (hroom : d.depth ≤ s.freeCount) :
    s.defineProbe f i = { s.setProbe i ((s.probe i).define d) with freeCount := s.freeCount - d.depth }.answer f
      (.defined ((s.probe i).generation + 1) (s.freeCount - d.depth)) := by
  simp [State.defineProbe, h, hd, Nat.not_lt.2 hroom]

end

/-- Settles O41: the state, the fields and the pool are looked at in this order, and nothing is written before all have
passed. -/
theorem defineTakesItsDepth : Obligations.DefineTakesItsDepth := by
  intro s f rest i h hid p reply
  have hkind : f.kind = 0x10 := h.kind
  let t : State := { s with inbox := rest }
  have hexec : exec .define s = .next (t.defineProbe f i) := exec_onProbe h hid rfl
  have hreply : ∀ body, t.answer f body = reply body := fun body => by rw [State.answer_taken, hkind]
  rw [hexec]
  refine ⟨?_, fun hstate => ?_, fun k hstate hk => ?_, fun d hstate hd hroom => ?_, fun d hstate hd hroom => ?_⟩
  · intro b0 b1 b2 b3 b4 b5 b6 b7 b8 b9 b10 b11 b12 b13 b14 b15 b16 hpayload
    rw [hpayload, defineFields_bytes]
  · exact congrArg _ ((State.defineProbe_of_not_free (s := t) hstate).trans (hreply _))
  · exact congrArg _ ((State.defineProbe_of_error (s := t) hstate hk).trans (hreply _))
  · exact congrArg _ ((State.defineProbe_of_no_room (s := t) hstate hd hroom).trans (hreply _))
  · rw [State.defineProbe_of_room (s := t) hstate hd hroom, Probe.define_eq, State.answer, hkind]
    rfl

/-! ### ARM and DISARM (R12, R13) -/

section
variable {s : State} {f : Frame} {i : Fin 32} {d : Definition}

theorem State.armProbe_of_defined (h : (s.probe i).state = .defined) (hd : (s.probe i).defn = some d) :
    s.armProbe f i =
      let due := if s.scheduler = .running then some (align s.counter d.period d.phase) else none
      (s.setProbe i ((s.probe i).arm d due)).answer f (.armed ((s.probe i).generation + 1) due) := by
  simp only [State.armProbe, h, hd]

theorem State.armProbe_of_not_defined (h : (s.probe i).state ≠ .defined) :
    s.armProbe f i = s.answer f (.wrongState (s.probe i).state) := by
  cases hstate : (s.probe i).state with
  | defined => exact absurd hstate h
  | free | armed => simp only [State.armProbe, hstate]

theorem State.disarmProbe_of_armed (h : (s.probe i).state = .armed) : s.disarmProbe f i =
    ((s.setProbe i { s.probe i with state := .defined, nextDue := none }).dropEntries (DueEntry.isScheduledOf i)).answer f
      (.generation (s.probe i).generation) := if_pos h

theorem State.disarmProbe_of_not_armed (h : (s.probe i).state ≠ .armed) :
    s.disarmProbe f i = s.answer f (.wrongState (s.probe i).state) := if_neg h

end

theorem Style.escalatedMode_eq (st : Style) :
    st.escalatedMode = match st with | .adaptive _ n => some (.escalated n) | _ => none := by
  cases st <;> rfl

/-- The record of a probe just armed, with its mode by its style. -/
theorem Probe.arm_eq (p : Probe) (d : Definition) (due : Option Tick) : p.arm d due = { p with
    state := .armed, generation := p.generation + 1, confirmed := .unknown, candidate := none, runs := 0
    mode := match d.style with | .adaptive _ n => some (.escalated n) | _ => none
    overruns := 0, overrunLatch := false, nextDue := due } := by
  rw [Probe.arm, Style.escalatedMode_eq]

/-- Settles O42: each command by the state it needs. -/
theorem armAndDisarm : Obligations.ArmAndDisarm := by
  intro s f rest i hid p reply
  let t : State := { s with inbox := rest }
  refine ⟨fun h => ?_, fun h => ?_⟩
  · have hexec : exec .arm s = .next (t.armProbe f i) := exec_onProbe h hid rfl
    rw [hexec]
    refine ⟨fun hstate => congrArg _ (State.armProbe_of_not_defined (s := t) hstate), fun d hstate hd => ?_⟩
    intro due
    rw [State.armProbe_of_defined (s := t) hstate hd]
    simp only [Probe.arm_eq]
    rfl
  · have hexec : exec .disarm s = .next (t.disarmProbe f i) := exec_onProbe h hid rfl
    rw [hexec]
    exact ⟨fun hstate => congrArg _ (State.disarmProbe_of_not_armed (s := t) hstate),
      fun hstate => congrArg _ (State.disarmProbe_of_armed (s := t) hstate)⟩

/-! ### DELETE (R14, R15) -/

theorem ParkedEntry.isMeasureOf_iff {i : Fin 32} {q : ParkedEntry} :
    q.isMeasureOf i = true ↔ q.command = .measure i := decide_eq_true_iff

theorem ParkedEntry.isMeasureOf_eq_false {i : Fin 32} {q : ParkedEntry} (h : q.command ≠ .measure i) :
    q.isMeasureOf i = false := decide_eq_false h

/-- The part after a DELETE, before the outcome of a MEASURE parked on the probe is fixed (R14). -/
def State.deleted (s : State) (f : Frame) (i : Fin 32) (d : Definition) : State :=
  State.answer { (s.setProbe i (Probe.cleared (s.probe i).generation)).dropEntries
    (fun e => e.isScheduledOf i || e.isOneShotOf i) with freeCount := s.freeCount + d.depth } f (.deleted (s.freeCount + d.depth))

theorem State.deleteProbe_of_free {s : State} {f : Frame} {i : Fin 32} (h : (s.probe i).state = .free) :
    s.deleteProbe f i = s.answer f (.wrongState .free) := if_pos h

theorem State.deleteProbe_of_defined {s : State} {f : Frame} {i : Fin 32} {d : Definition} (h : (s.probe i).state ≠ .free)
    (hd : (s.probe i).defn = some d) :
    s.deleteProbe f i = (s.deleted f i d).fixOutcomes (ParkedEntry.isMeasureOf i) (.aborted i) := by
  have hdepth : (s.probe i).depth = d.depth := by simp only [Probe.depth, hd]
  rw [State.deleteProbe, if_neg h, hdepth]
  rfl

/-- Settles O43: DELETE's own reply takes its slot before the MEASURE's. -/
theorem deleteReturnsEverything : Obligations.DeleteReturnsEverything := by
  intro s f rest i h hid p reply
  have hkind : f.kind = 0x13 := h.kind
  let u : State := { s with inbox := rest }
  have hexec : exec .delete s = .next (u.deleteProbe f i) := exec_onProbe h hid rfl
  rw [hexec]
  refine ⟨fun hstate => ?_, fun d hstate hd => ?_⟩
  · rw [State.deleteProbe_of_free (s := u) hstate, State.answer_taken, hkind]
  intro t
  have ht : u.deleted f i d = t := by
    rw [State.deleted, State.answer, hkind]
    rfl
  rw [State.deleteProbe_of_defined (s := u) hstate hd, ht]
  refine ⟨fun hnone => ?_, fun before q after hsplit hq hother => ?_⟩
  · exact congrArg _ (State.fixOutcomes_none _ fun e he _ => ParkedEntry.isMeasureOf_eq_false (hnone e he))
  · have hone := State.fixOutcomes_one (s := t) (which := ParkedEntry.isMeasureOf i) (.aborted i) hsplit
      (h.noneWaiting q (by simp [hsplit])) (ParkedEntry.isMeasureOf_iff.2 hq)
      fun e he => ⟨fun _ => ParkedEntry.isMeasureOf_eq_false (hother e he).1, (hother e he).2⟩
    have hlen : t.replies.length = s.replies.length + 1 := List.length_append
    rw [hone, hlen]
    refine ⟨fun hslot => ?_, fun hfull => ?_⟩
    · rw [if_pos ⟨by omega, h.noneWaiting⟩, hq]
      rfl
    · rw [if_neg fun hc => by omega]

/-! ### SET_LIMITS (R16, R17) -/

section
variable {s : State} {f : Frame} {i : Fin 32} {d : Definition}

theorem State.limitProbe_of_free (h : (s.probe i).state = .free) : s.limitProbe f i = s.answer f (.wrongState .free) := by
  simp only [State.limitProbe, h]

theorem State.limitProbe_of_defined (h : (s.probe i).state ≠ .free) (hd : (s.probe i).defn = some d) :
    s.limitProbe f i = if d.style = .check then s.answer f (.wrongState (s.probe i).state)
      else match checkWindow d.style.need (halfAt f.payload 1) (halfAt f.payload 3) (byteAt f.payload 5) (byteAt f.payload 6) with
        | .error field => s.answer f (.badValue field)
        | .ok window => ((s.setProbe i ((s.probe i).limit d window)).dropEntries (DueEntry.isScheduledOf i)).answer f
          (.generation ((s.probe i).generation + 1)) := by
  cases hstate : (s.probe i).state with
  | free => exact absurd hstate h
  | defined | armed =>
    simp only [State.limitProbe, hstate, hd] <;> rfl

end

theorem windowFieldOk_outside (needs bars : Prop) (high low : Half) (hysteresis settle : Byte) :
    ∀ j, j < 6 ∨ 9 ≤ j → WindowFieldOk needs bars high low hysteresis settle j := by
  intro j hj
  unfold WindowFieldOk
  split
  · omega
  · omega
  · omega
  · trivial

theorem Style.need_eq_required (st : Style) : st.need = .required ↔ (∀ w, st ≠ .level w) ∧ st ≠ .check := by
  cases st <;> simp [Style.need]

theorem Style.need_eq_barred (st : Style) : st.need = .barred ↔ st = .check := by
  cases st <;> simp [Style.need]

/-- The record of a probe given new limits, with its mode by its style. -/
theorem Probe.limit_eq (p : Probe) (d : Definition) (window : Option Window) : p.limit d window = { p with
    defn := some { d with style := d.style.withWindow window }
    generation := p.generation + 1
    confirmed := .unknown
    candidate := none
    mode := if p.state = .armed then match d.style with | .adaptive _ n => some (.escalated n) | _ => none
      else p.mode } := by
  rw [Probe.limit, Style.escalatedMode_eq]

/-- Settles O44: `checkWindow` examines the fields 6 to 8 in order, and the window it accepts is the one carried. -/
theorem setLimitsStartsFromUnknown : Obligations.SetLimitsStartsFromUnknown := by
  intro s f rest i d h hid p reply sent
  have hkind : f.kind = 0x14 := h.kind
  let u : State := { s with inbox := rest }
  have hexec : exec .setLimits s = .next (u.limitProbe f i) := exec_onProbe h hid rfl
  have hreply : ∀ body, u.answer f body = reply body := fun body => by rw [State.answer_taken, hkind]
  have hsent : sent = checkWindow d.style.need (halfAt f.payload 1) (halfAt f.payload 3) (byteAt f.payload 5)
      (byteAt f.payload 6) := by
    cases hstyle : d.style <;> simp [sent, hstyle, Style.need]
  have hexamines := checkWindow_examines d.style.need (halfAt f.payload 1) (halfAt f.payload 3) (byteAt f.payload 5)
    (byteAt f.payload 6)
  rw [hexec, hsent]
  refine ⟨?_, fun hstate => ?_, fun hstate hd hstyle => ?_, fun k hstate hd hstyle hk => ?_, fun k => ?_, fun window hw => ?_,
    fun window hstate hd hstyle hw => ?_⟩
  · intro b0 b1 b2 b3 b4 b5 b6 hpayload
    rw [hpayload]
    exact ⟨rfl, rfl, rfl, rfl⟩
  · exact congrArg _ ((State.limitProbe_of_free (s := u) hstate).trans (hreply _))
  · rw [State.limitProbe_of_defined (s := u) hstate hd, if_pos hstyle, hreply]
    rfl
  · rw [State.limitProbe_of_defined (s := u) hstate hd, if_neg hstyle, hk, ← hreply]
  · rw [hexamines.error_iff (windowFieldOk_outside _ _ _ _ _ _), Style.need_eq_required, Style.need_eq_barred]
  · exact (hexamines.sound_of_ok hw).carries
  · rw [State.limitProbe_of_defined (s := u) hstate hd, if_neg hstyle, hw]
    dsimp only
    rw [Probe.limit_eq, State.answer, hkind]
    rfl

/-! ### MEASURE (R44, R55) -/

section
variable {s : State} {f : Frame} {i : Fin 32}

theorem State.any_isMeasureOf : s.parked.any (ParkedEntry.isMeasureOf i) = true ↔ ∃ q ∈ s.parked, q.command = .measure i := by
  simp [ParkedEntry.isMeasureOf]

theorem State.measureProbe_of_free (h : (s.probe i).state = .free) : s.measureProbe f i = s.answer f (.wrongState .free) :=
  if_pos h

theorem State.measureProbe_of_beside (h : (s.probe i).state ≠ .free) (hbeside : ∃ q ∈ s.parked, q.command = .measure i) :
    s.measureProbe f i = s.answer f .inProgress := by
  rw [State.measureProbe, if_neg h, if_pos (State.any_isMeasureOf.2 hbeside)]

theorem State.measureProbe_of_alone (h : (s.probe i).state ≠ .free) (hnone : ∀ q ∈ s.parked, q.command ≠ .measure i) :
    s.measureProbe f i = if 4 ≤ s.parked.length then s.answer f .busy
      else (s.park f.tag (.measure i)).queueOneShot ⟨i, s.nextLink⟩ := by
  have hno : ¬ s.parked.any (ParkedEntry.isMeasureOf i) = true := fun hc => by
    obtain ⟨q, hq, hmeasure⟩ := State.any_isMeasureOf.1 hc
    exact hnone q hq hmeasure
  rw [State.measureProbe, if_neg h, if_neg hno]

end

/-- Settles O45: the four branches of `measureProbe`; the entry goes ahead of the first that is no ONE_SHOT. -/
theorem measureParksAndQueuesAOneShot : Obligations.MeasureParksAndQueuesAOneShot := by
  intro s f rest i h hid p reply
  have hkind : f.kind = 0x16 := h.kind
  let u : State := { s with inbox := rest }
  have hexec : exec .measure s = .next (u.measureProbe f i) := exec_onProbe h hid rfl
  have hreply : ∀ body, u.answer f body = reply body := fun body => by rw [State.answer_taken, hkind]
  rw [hexec]
  refine ⟨fun hstate => ?_, fun hstate hbeside => ?_, fun hstate hnone hfull => ?_,
    fun shots work hstate hnone hroom hqueue hshots hwork => ?_⟩
  · exact congrArg _ ((State.measureProbe_of_free (s := u) hstate).trans (hreply _))
  · exact congrArg _ ((State.measureProbe_of_beside (s := u) hstate hbeside).trans (hreply _))
  · rw [State.measureProbe_of_alone (s := u) hstate hnone, if_pos hfull, hreply]
  · have hinsert : insertAhead (fun y => !y.isOneShot) (.oneShot ⟨i, s.nextLink⟩) s.dueQueue =
        shots ++ .oneShot ⟨i, s.nextLink⟩ :: work := by
      rw [hqueue]
      refine insertAhead_append _ (fun y hy => by simp [hshots y hy]) fun y hy => ?_
      simp [hwork y (List.mem_of_mem_head? hy)]
    rw [State.measureProbe_of_alone (s := u) hstate hnone, if_neg (Nat.not_le.2 hroom), ← hinsert]
    rfl

end Sys2Proof.Machine
end

section
/-! PROOFS. The host's commands of the scheduler (RUN, PAUSE), of the notice queue (ACK, HOLD), of the link, the evaluator and the
processor (LINK_CONFIG, CHECK_CONFIG, READ_COUNTERS, SOFT_RESET). -/

namespace Sys2Proof.Machine

/-! ### RUN (R27, R32) -/

theorem ParkedEntry.isPause_eq_false {q : ParkedEntry} (h : q.command ≠ .pause) : q.isPause = false := decide_eq_false h

theorem Probe.aligned_eq (c : Tick) (p : Probe) : p.aligned c = match p.state, p.defn with
    | .armed, some d => { p with nextDue := some (align c d.period d.phase) }
    | _, _ => p := rfl

/-- Settles O46: RUN's reply is queued before the outcomes of the PAUSEs are fixed. -/
theorem runAlignsEveryArmedProbe : Obligations.RunAlignsEveryArmedProbe := by
  intro s f rest h replied
  have hkind : f.kind = 0x20 := h.kind
  let u : State := { s with inbox := rest }
  have hexec : exec .run s = .next (u.runScheduler f) := exec_taking h
  have hanswer : ∀ t : State, t.answer f (.counter s.counter) =
      { t with replies := t.replies ++ [⟨f.tag, 0x20, .counter s.counter⟩] } := fun t => by
    rw [State.answer, hkind]
    rfl
  rw [hexec]
  refine ⟨fun hst => ?_, fun hst => ⟨u.enterRunning.probes, fun i => ?_, ?_⟩⟩
  · have hst : u.scheduler = .running := hst
    simp only [State.runScheduler, hst]
    exact congrArg _ (hanswer u)
  · exact (State.enterRunning_probe u i).trans (Probe.aligned_eq _ _)
  intro running
  have hrunning : u.enterRunning.answer f (.counter s.counter) = running := hanswer _
  have hdraining : s.scheduler = .draining → u.runScheduler f = running.fixOutcomes ParkedEntry.isPause .superseded :=
    fun hst => by
      have hst : u.scheduler = .draining := hst
      simp only [State.runScheduler, hst]
      rw [← hrunning]
  refine ⟨fun hno => ?_, fun hst hlinks => ?_, fun before q after hst hsplit hq hother => ?_⟩
  · cases hs : s.scheduler with
    | running => exact absurd hs hst
    | stopped =>
      have hs : u.scheduler = .stopped := hs
      simp only [State.runScheduler, hs]
      exact congrArg _ hrunning
    | draining =>
      rw [hdraining hs, State.fixOutcomes_none]
      intro q hq _
      exact ParkedEntry.isPause_eq_false (hno.elim (fun hc => by simp [hs] at hc) fun hno => hno q hq)
  · rw [hdraining hst]
    exact congrArg _ (State.fixOutcomes_isPause (s := running) hlinks _)
  · have hone := State.fixOutcomes_one (s := running) (which := ParkedEntry.isPause) .superseded hsplit
      (h.noneWaiting q (by simp [hsplit])) (decide_eq_true hq)
      fun e he => ⟨fun _ => ParkedEntry.isPause_eq_false (hother e he).1, (hother e he).2⟩
    have hlen : running.replies.length = s.replies.length + 1 := List.length_append
    rw [hdraining hst, hone, hlen]
    refine ⟨fun hslot => ?_, fun hfull => ?_⟩
    · rw [if_pos ⟨by omega, h.noneWaiting⟩, hq]
      rfl
    · rw [if_neg fun hc => by omega]

/-! ### PAUSE (R28 to R30) -/

theorem State.leaveRunning_eq (s : State) (st : SchedulerState) : s.leaveRunning st =
    { s with
      scheduler := st
      probes := (s.leaveRunning .stopped).probes
      dueQueue := s.dueQueue.filter DueEntry.isOneShot } := by
  simp [State.leaveRunning, State.dropEntries, State.mapProbes]

/-- Settles O47: the branches of `pauseScheduler`. -/
theorem pauseStopsOrDrains : Obligations.PauseStopsOrDrains := by
  intro s f rest h reply parked inFlight
  have hkind : f.kind = 0x21 := h.kind
  let u : State := { s with inbox := rest }
  have hexec : exec .pause s = .next (u.pauseScheduler f) := exec_taking h
  have hreply : ∀ (t : State) body, t.replies = s.replies → t.inbox = rest → t.answer f body = reply t body :=
    fun t body hreplies hinbox => by
      simp only [reply]
      rw [← hreplies, ← hinbox, ← hkind]
      rfl
  have hflight : u.scheduledInFlight = true ↔ inFlight := State.scheduledInFlight_iff
  rw [hexec]
  refine ⟨(u.leaveRunning .stopped).probes, fun i => State.leaveRunning_probe u .stopped i, ?_⟩
  intro left
  have hleft : ∀ st, { left st with inbox := rest } = u.leaveRunning st := fun st => (State.leaveRunning_eq u st).symm
  refine ⟨fun hst => ?_, fun hst hidle => ?_, fun hst hbusy hroom => ?_, fun hst hbusy hfull => ?_, fun hst hroom => ?_,
    fun hst hfull => ?_⟩ <;> have hu : u.scheduler = _ := hst <;> simp only [State.pauseScheduler, hu]
  · exact congrArg _ (hreply u _ rfl rfl)
  · rw [if_pos (by simpa using fun hc => hidle (hflight.1 hc)), ← hleft]
    exact congrArg _ (hreply { left .stopped with inbox := rest } _ rfl rfl)
  · rw [if_neg (by simpa using hflight.2 hbusy), if_neg (Nat.not_le.2 hroom), ← hleft]
    rfl
  · rw [if_neg (by simpa using hflight.2 hbusy), if_pos hfull, hreply u _ rfl rfl]
  · rw [if_neg (Nat.not_le.2 hroom)]
    rfl
  · rw [if_pos hfull, hreply u _ rfl rfl]

/-! ### ACK (R135) -/

/-- A 16-bit field is its two bytes, most significant first. -/
theorem half_eq_append (x : Half) : x.extractLsb' 8 8 ++ x.extractLsb' 0 8 = x := by
  ext j hj
  simp only [BitVec.getElem_append, BitVec.getElem_extractLsb']
  grind

theorem halves_flatMap_bytes16 (numbers : List Half) : halves (numbers.flatMap bytes16) = numbers := by
  induction numbers with
  | nil => rfl
  | cons n rest ih => exact congrArg₂ _ (half_eq_append n) ih

theorem eraseP_seq_eq_filter {notices : List Notice} (hseq : (notices.map Notice.seq).Nodup) (n : Half) :
    (notices.eraseP fun x => x.seq = n) = notices.filter fun x => x.seq ≠ n := by
  induction notices with
  | nil => rfl
  | cons x rest ih =>
    obtain ⟨hx, hrest⟩ := List.nodup_cons.1 hseq
    by_cases hxn : x.seq = n
    · have hall : rest.filter (fun y => decide (y.seq ≠ n)) = rest := List.filter_eq_self.2 fun y hy => by
        simpa using fun hy' => hx (List.mem_map.2 ⟨y, hy, hy'.trans hxn.symm⟩)
      rw [List.eraseP_cons_of_pos (by simpa), List.filter_cons_of_neg (by simpa), hall]
    · rw [List.eraseP_cons_of_neg (by simpa), List.filter_cons_of_pos (by simpa), ih hrest]

/-- One number of the list: the notices that carry it go, and it counts as removed or as not found. -/
theorem ackOne_eq {notices : List Notice} (hseq : (notices.map Notice.seq).Nodup) (a b : Nat) (n : Half) :
    ∃ r k, ackOne (notices, a, b) n = (notices.filter (fun x => x.seq ≠ n), a + r, b + k) ∧ r + k = 1 ∧
      r + (notices.filter fun x => x.seq ≠ n).length = notices.length := by
  rw [← eraseP_seq_eq_filter hseq]
  by_cases hany : (notices.any fun x => x.seq = n) = true
  · refine ⟨1, 0, if_pos hany, rfl, ?_⟩
    obtain ⟨x, hx, hxn⟩ := List.any_eq_true.1 hany
    have hlen := List.length_eraseP_of_mem (p := fun x => decide (x.seq = n)) hx hxn
    have := List.length_pos_of_mem hx
    omega
  · have hself : (notices.eraseP fun x => x.seq = n) = notices :=
      List.eraseP_of_forall_not fun x hx hxn => hany (List.any_eq_true.2 ⟨x, hx, hxn⟩)
    rw [hself]
    exact ⟨0, 1, if_neg hany, rfl, Nat.zero_add _⟩

/-- The whole list: the notices carrying none of its numbers stay, each other was removed by one of the numbers, and the
rest of the numbers were not found. -/
theorem foldl_ackOne (numbers : List Half) : ∀ {notices : List Notice}, (notices.map Notice.seq).Nodup → ∀ a b,
    ∃ r k, numbers.foldl ackOne (notices, a, b) = (notices.filter (fun x => x.seq ∉ numbers), a + r, b + k) ∧
      r + k = numbers.length ∧ r + (notices.filter fun x => x.seq ∉ numbers).length = notices.length := by
  induction numbers with
  | nil => exact fun _ a b => ⟨0, 0, by simp, rfl, by simp⟩
  | cons n rest ih =>
    intro notices hseq a b
    obtain ⟨r, k, hone, hcount, hlen⟩ := ackOne_eq hseq a b n
    obtain ⟨r', k', hrest, hcount', hlen'⟩ := ih (hseq.sublist (List.filter_sublist.map _)) (a + r) (b + k)
    have hfilter : (notices.filter fun x => x.seq ≠ n).filter (fun x => x.seq ∉ rest) =
        notices.filter fun x => x.seq ∉ n :: rest := by
      rw [List.filter_filter]
      exact List.filter_congr fun x _ => by simp [Bool.and_comm]
    rw [List.foldl_cons, hone, hrest, hfilter]
    rw [hfilter] at hlen'
    exact ⟨r + r', k + k', by simp only [Nat.add_assoc], by simp only [List.length_cons]; omega, by omega⟩

/-- Settles O50, by induction on the list of numbers. -/
theorem ackRemovesTheListedNotices : Obligations.AckRemovesTheListedNotices := by
  intro s f rest numbers h hpayload hseq removed
  obtain ⟨r, k, hfold, hcount, hlen⟩ := foldl_ackOne numbers hseq 0 0
  have hkind : f.kind = 0x40 := h.kind
  have hremoved : removed = r := by
    have := List.length_eq_length_filter_add (l := s.notices) fun n => n.seq ∈ numbers
    simp only [decide_not] at hlen
    omega
  have hexec : exec .ack s = .next (State.acknowledge f { s with inbox := rest }) := exec_taking h
  have hnotFound : numbers.length - removed = k := by omega
  rw [hexec, State.acknowledge, hpayload, halves_flatMap_bytes16, hfold, hnotFound, hremoved, Nat.zero_add, Nat.zero_add,
    ← hkind]
  rfl

/-! ### HOLD, CHECK_CONFIG, LINK_CONFIG (R123, R91, R141) -/

theorem classSet_ofByte (b : Byte) : ClassSet.ofByte b =
    if b.toNat < 16 then some ⟨b.getLsbD 0, b.getLsbD 1, b.getLsbD 2, b.getLsbD 3⟩ else none := by
  have h : b.extractLsb' 4 4 = 0 ↔ b.toNat < 16 := by
    rw [← BitVec.toNat_inj, BitVec.extractLsb'_toNat, Nat.shiftRight_eq_div_pow]
    have := b.isLt
    simp
    omega
  simp only [ClassSet.ofByte, h]

section
variable {s : State} {f : Frame}

theorem State.configureLink_of_zero (h : byteAt f.payload 0 = 0) :
    s.configureLink f = s.answer f (.linkConfig s.ackTimeout f.muteNoted s.rate s.sentCount) := by
  simp [State.configureLink, h]

theorem State.configureLink_of_short (h : 1 ≤ (byteAt f.payload 0).toNat) (h' : (byteAt f.payload 0).toNat ≤ 7) :
    s.configureLink f = s.answer f (.badValue 17) := if_pos ⟨h, h'⟩

theorem State.configureLink_of_long (h : 8 ≤ (byteAt f.payload 0).toNat) : s.configureLink f =
    { s with ackTimeout := byteAt f.payload 0 }.answer f
      (.linkConfig (byteAt f.payload 0) f.muteNoted s.rate s.sentCount) := by
  have hne : byteAt f.payload 0 ≠ 0 := fun hc => by simp [hc] at h
  rw [State.configureLink, if_neg (by omega)]
  simp only [if_neg hne]

end

/-- Settles O51: each command by the value of its byte. -/
theorem configurationCommands : Obligations.ConfigurationCommands := by
  intro s f rest v set reply
  let u : State := { s with inbox := rest }
  refine ⟨fun h => ?_, fun h => ?_, fun h => ?_⟩
  · have hexec : exec .hold s = .next (State.replaceHold f u) := exec_taking h
    rw [hexec, State.replaceHold, classSet_ofByte]
    refine ⟨fun hv => ?_, fun hv => ?_⟩
    · rw [if_pos hv]
      rfl
    · rw [if_neg (Nat.not_lt.2 hv)]
      rfl
  · have hexec : exec .checkConfig s = .next (State.configureCheck f u) := exec_taking h
    rw [hexec, State.configureCheck]
    refine ⟨fun hv => ?_, fun hv => ?_⟩
    · simp only [show byteAt f.payload 0 = 0 from hv, if_pos]
      rfl
    · simp only [if_neg (show ¬ byteAt f.payload 0 = 0 from hv)]
      rfl
  · have hexec : exec .linkConfig s = .next (State.configureLink f u) := exec_taking h
    rw [hexec]
    exact ⟨fun hv => congrArg _ (State.configureLink_of_zero (s := u) hv),
      fun hv hv' => congrArg _ (State.configureLink_of_short (s := u) hv hv'),
      fun hv => congrArg _ (State.configureLink_of_long (s := u) hv)⟩

/-! ### READ_COUNTERS and SOFT_RESET (R169, R170) -/

section
variable {s : State} {f : Frame}

theorem State.readCounters_of_zero (h : byteAt f.payload 0 = 0) :
    s.readCounters f = s.answer f (.counters s.counters s.dropped) := by
  simp [State.readCounters, indication?, h]

theorem State.readCounters_of_one (h : byteAt f.payload 0 = 1) : s.readCounters f =
    { s with counters := ⟨0, 0, 0, 0⟩, dropped := 0 }.answer f (.counters s.counters s.dropped) := by
  simp [State.readCounters, indication?, h]

theorem State.readCounters_of_other (h : 1 < (byteAt f.payload 0).toNat) : s.readCounters f = s.answer f (.badValue 18) := by
  have hzero : byteAt f.payload 0 ≠ 0 := fun hc => by simp [hc] at h
  have hone : byteAt f.payload 0 ≠ 1 := fun hc => by simp [hc] at h
  have hnone : indication? (byteAt f.payload 0) = none := by rw [indication?, if_neg hzero, if_neg hone]
  simp only [State.readCounters, hnone]

end

/-- Settles O52: READ_COUNTERS by its indication byte. -/
theorem countersAndSoftReset : Obligations.CountersAndSoftReset := by
  intro s f rest b reply
  let u : State := { s with inbox := rest }
  refine ⟨fun h => ?_, fun h => exec_taking h⟩
  have hexec : exec .readCounters s = .next (State.readCounters f u) := exec_taking h
  rw [hexec]
  exact ⟨fun hb => congrArg _ (State.readCounters_of_zero (s := u) hb),
    fun hb => congrArg _ (State.readCounters_of_one (s := u) hb),
    fun hb => congrArg _ (State.readCounters_of_other (s := u) hb)⟩

end Sys2Proof.Machine
end

section
/-! PROOFS. The link (Chapter 9): the receiver byte by byte and over a whole frame, the receipt, the break, and the starts and ends
of transmissions. -/

namespace Sys2Proof.Machine

/-! ### The arrival of a byte (R145, R149, R150) -/

theorem exec_byteArrival {s : State} (hs : s.Quiet) (c : Character) :
    exec (.byteArrival c.data c.stopHigh) s = .next (s.endCharacter c) :=
  congrArg _ (State.act_of_quiet hs fun t => t.endCharacter c)

section
variable {s : State} {b : Byte}

theorem State.arrive_hunt (h : s.receiver.phase = .hunt) : s.arrive b = { s with receiver := huntByte b } := by
  simp only [State.arrive, h]

theorem State.arrive_header (h : s.receiver.phase = .header) : s.arrive b = s.headerByte b := by
  simp only [State.arrive, h]

theorem State.arrive_body (h : s.receiver.phase = .body) : s.arrive b = s.bodyByte b := by
  simp only [State.arrive, h]

theorem State.headerByte_len (h : s.receiver.bytes = []) (hb : b.toNat ≤ 56) :
    s.headerByte b = { s with receiver := ⟨.header, [b], 2, 0⟩ } := by
  simp only [State.headerByte, h]
  exact if_neg (Nat.not_lt.2 hb)

theorem State.headerByte_long (h : s.receiver.bytes = []) (hb : 56 < b.toNat) : s.headerByte b = { s with
    receiver := huntByte b
    counters := { s.counters with lengthErrors := satInc s.counters.lengthErrors } } := by
  simp only [State.headerByte, h]
  exact if_pos hb

theorem State.headerByte_kind {len : Byte} (h : s.receiver.bytes = [len]) :
    s.headerByte b = { s with receiver := ⟨.header, [len, b], 1, 0⟩ } := by
  simp only [State.headerByte, h]

theorem State.headerByte_tag {len kind : Byte} (h : s.receiver.bytes = [len, kind]) :
    s.headerByte b = { s with receiver := ⟨.body, [len, kind, b], len.toNat + 2, 0⟩ } := by
  simp only [State.headerByte, h]
  rfl

theorem State.bodyByte_more {n : Nat} (h : s.receiver.expected = n + 2) :
    s.bodyByte b = { s with receiver := ⟨.body, s.receiver.bytes ++ [b], n + 1, 0⟩ } := by
  rw [State.bodyByte, h]
  exact if_neg (by omega)

theorem State.bodyByte_last (h : s.receiver.expected = 1) : s.bodyByte b = s.endFrame (s.receiver.bytes ++ [b]) := by
  rw [State.bodyByte, h]
  exact if_pos (Nat.le_refl 1)

end

/-- The end of a frame of any payload, by its check sequence. -/
theorem State.endFrame_eq (s : State) (len kind tag hi lo : Byte) (payload : List Byte) :
    s.endFrame (len :: kind :: tag :: payload ++ [hi] ++ [lo]) =
      if fcs (len :: kind :: tag :: payload) = hi ++ lo then
        { s with receiver := ⟨.hunt, [], 0, 0⟩, owed := { s.owed with receipt := some (kind, tag, payload) } }
      else { s with
        receiver := ⟨.hunt, [], 0, 0⟩
        counters := { s.counters with checkErrors := satInc s.counters.checkErrors } } := by
  have hlen : (len :: kind :: tag :: payload ++ [hi] ++ [lo]).length - 2 = (len :: kind :: tag :: payload).length := by
    simp
  have hbytes : len :: kind :: tag :: payload ++ [hi] ++ [lo] = (len :: kind :: tag :: payload) ++ [hi, lo] := by simp
  have hhalf : halfAt (len :: kind :: tag :: payload ++ [hi] ++ [lo]) (len :: kind :: tag :: payload).length = hi ++ lo := by
    rw [hbytes, halfAt, byteAt, byteAt, List.getD_append_right _ _ _ _ (Nat.le_refl _),
      List.getD_append_right _ _ _ _ (Nat.le_add_right _ 1), Nat.sub_self, Nat.add_sub_cancel_left]
    rfl
  have htake : (len :: kind :: tag :: payload ++ [hi] ++ [lo]).take (len :: kind :: tag :: payload).length =
      len :: kind :: tag :: payload := by
    rw [hbytes, List.take_left]
  rw [State.endFrame, hlen, hhalf, htake]
  rfl

/-- Settles O17: the receiver's equations, case by case. -/
theorem byteArrivalFollowsTheReceiver : Obligations.ByteArrivalFollowsTheReceiver := by
  intro s c hs b hunted arrived
  have howed : s.owed = Owed.nothing := (Prod.mk.inj hs).2
  let t : State := { s with rxdHigh := true }
  rw [exec_byteArrival hs]
  refine ⟨fun hfree hstop => ?_, fun hfree hstop => ?_, fun hheld => ?_⟩
  · have harrive : s.endCharacter c = t.arrive b := State.endCharacter_arrives hfree hstop
    rw [harrive]
    refine ⟨fun hp => ?_, fun bytes hp hbytes => ?_, fun bytes n hp hbytes hn => ?_,
      fun len kind tag payload hi hp hbytes hn => ?_⟩
    · exact congrArg _ (State.arrive_hunt (s := t) hp)
    · have hbytes : t.receiver.bytes = bytes := hbytes
      rw [State.arrive_header (s := t) hp]
      refine ⟨fun hnil hb => ?_, fun hnil hb => ?_, fun len hlen => ?_, fun len kind hkind => ?_⟩
      · exact congrArg _ (State.headerByte_len (hbytes.trans hnil) hb)
      · rw [State.headerByte_long (hbytes.trans hnil) hb, satInc_half]
        rfl
      · exact congrArg _ (State.headerByte_kind (hbytes.trans hlen))
      · exact congrArg _ (State.headerByte_tag (hbytes.trans hkind))
    · rw [State.arrive_body (s := t) hp, State.bodyByte_more (s := t) hn, ← hbytes]
    · have hbytes : t.receiver.bytes = len :: kind :: tag :: payload ++ [hi] := hbytes
      rw [State.arrive_body (s := t) hp, State.bodyByte_last (s := t) hn, hbytes, State.endFrame_eq]
      refine ⟨fun hsound => ?_, fun hwrong => ?_⟩
      · rw [if_pos hsound, show t.owed = Owed.nothing from howed]
        rfl
      · rw [if_neg hwrong, satInc_half]
  · rw [State.endCharacter, if_neg hfree, if_neg (by simp [hstop])]
  · rw [State.endCharacter, if_pos hheld]

/-! ### A whole frame (R147 to R150) -/

theorem fcsByte_eq_iterate (r : BitVec 16) (b : Byte) : fcsByte r b = fcsShift^[8] (r ^^^ (b.setWidth 16 <<< 8)) := rfl

/-- A byte at the low end of the check register is only shifted up until it reaches the top. -/
theorem iterate_fcsShift_setWidth (b : Byte) {k : Nat} (hk : k ≤ 8) : fcsShift^[k] (b.setWidth 16) = b.setWidth 16 <<< k := by
  induction k with
  | zero => simp
  | succ k ih =>
    have htop : (b.setWidth 16 <<< k).msb = false := by
      rw [BitVec.msb_eq_getLsbD_last, BitVec.getLsbD_shiftLeft, BitVec.getLsbD_setWidth, BitVec.getLsbD_of_ge b _ (by omega)]
      simp
    rw [Function.iterate_succ_apply', ih (by omega), fcsShift, htop, BitVec.shiftLeft_add]
    rfl

/-- A check register followed by its own two bytes leaves 0. -/
theorem fcsByte_fcsByte_self (r : BitVec 16) : fcsByte (fcsByte r (r.extractLsb' 8 8)) (r.extractLsb' 0 8) = 0 := by
  have hhigh : r ^^^ ((r.extractLsb' 8 8).setWidth 16 <<< 8) = (r.extractLsb' 0 8).setWidth 16 := by
    ext j hj
    simp only [BitVec.getElem_xor, BitVec.getElem_shiftLeft, BitVec.getElem_setWidth, BitVec.getLsbD_extractLsb']
    grind
  rw [fcsByte_eq_iterate r, hhigh, iterate_fcsShift_setWidth _ (Nat.le_refl 8), fcsByte_eq_iterate, BitVec.xor_self]
  rfl

theorem fcs_append_self (bytes : List Byte) : fcs (bytes ++ bytes16 (fcs bytes)) = 0 := by
  rw [fcs, List.foldl_append]
  exact fcsByte_fcsByte_self (fcs bytes)

/-- The part while a frame is being received: the receiver's state, and the bytes still to come. -/
def State.receiving (s : State) (r : Receiver) (coming : List Byte) : State :=
  { s with
    pending := coming.map fun b => .byteArrival (Character.ofByte b).data true, rxdHigh := true, receiver := r }

/-- One byte of the frame is one step. -/
theorem run_arrives {t : State} (ht : t.Quiet) (htx : t.transmitter ≠ .held) {b : Byte} {coming : List Byte}
    (hpending : t.pending = (b :: coming).map fun b => .byteArrival (Character.ofByte b).data true) (k : Nat) :
    Sys2Proof.core.run (k + 1) t = Sys2Proof.core.run k ((t.receiving t.receiver coming).arrive b) := by
  refine core_run_succ ?_ k
  let u : State := { t with pending := coming.map fun b => .byteArrival (Character.ofByte b).data true }
  have hstep : step t = .next (u.endCharacter (Character.ofByte b)) := by
    simp only [step, hpending, List.map_cons]
    exact exec_byteArrival (s := u) ht (Character.ofByte b)
  rw [hstep, State.endCharacter_arrives (s := u) htx rfl, Character.byte_ofByte]
  rfl

section
variable {s : State} (hs : s.Quiet) (hfree : s.transmitter ≠ .held)
include hs hfree

theorem run_receiving_cons (r : Receiver) (b : Byte) (coming : List Byte) (k : Nat) :
    Sys2Proof.core.run (k + 1) (s.receiving r (b :: coming)) = Sys2Proof.core.run k ((s.receiving r coming).arrive b) :=
  run_arrives (t := s.receiving r (b :: coming)) hs hfree rfl k

/-- The header: LEN, KIND and TAG are gathered, and LEN + 2 bytes are then expected. -/
theorem run_receiving_header (len kind tag : Byte) (coming : List Byte) (hlen : len.toNat ≤ 56) (k : Nat) :
    Sys2Proof.core.run (k + 3) (s.receiving ⟨.header, [], 3, 0⟩ (len :: kind :: tag :: coming)) =
      Sys2Proof.core.run k (s.receiving ⟨.body, [len, kind, tag], len.toNat + 2, 0⟩ coming) := by
  rw [run_receiving_cons hs hfree, State.arrive_header rfl, State.headerByte_len rfl hlen]
  change Sys2Proof.core.run (k + 2) (s.receiving ⟨.header, [len], 2, 0⟩ (kind :: tag :: coming)) = _
  rw [run_receiving_cons hs hfree, State.arrive_header rfl, State.headerByte_kind rfl]
  change Sys2Proof.core.run (k + 1) (s.receiving ⟨.header, [len, kind], 1, 0⟩ (tag :: coming)) = _
  rw [run_receiving_cons hs hfree, State.arrive_header rfl, State.headerByte_tag rfl]
  rfl

/-- Bytes of a body before its last are gathered and counted down. -/
theorem run_receiving_body (body : List Byte) (gathered coming : List Byte) (k : Nat) :
    Sys2Proof.core.run (k + body.length) (s.receiving ⟨.body, gathered, body.length + 1, 0⟩ (body ++ coming)) =
      Sys2Proof.core.run k (s.receiving ⟨.body, gathered ++ body, 1, 0⟩ coming) := by
  induction body generalizing gathered with
  | nil => rw [List.append_nil]; rfl
  | cons b rest ih =>
    have hmore : (s.receiving ⟨.body, gathered, rest.length + 1 + 1, 0⟩ (rest ++ coming)).arrive b =
        s.receiving ⟨.body, gathered ++ [b], rest.length + 1, 0⟩ (rest ++ coming) := by
      rw [State.arrive_body rfl, State.bodyByte_more rfl]
      rfl
    rw [List.length_cons, ← Nat.add_assoc, List.cons_append, run_receiving_cons hs hfree, hmore, ih, List.append_assoc]
    rfl

end

/-- The bytes of a frame one by one: SYNC, the header, the body but its last byte, and that byte. -/
theorem frameBytes_eq (kind tag : Byte) (payload : List Byte) :
    let check := fcs (byteOf payload.length :: kind :: tag :: payload)
    frameBytes kind tag payload = 0xC3 :: byteOf payload.length :: kind :: tag ::
      (payload ++ [check.extractLsb' 8 8] ++ [check.extractLsb' 0 8]) := by
  intro check
  rw [List.append_assoc]
  rfl

/-- Settles O16: SYNC, the header and the body one after the other; the last byte completes the check sequence. -/
theorem receiverDeliversEverySoundFrame : Obligations.ReceiverDeliversEverySoundFrame := by
  refine ⟨fun s kind tag payload hs hlength hhunt hfree => ?_, fcs_append_self⟩
  intro bytes hpending
  let len := byteOf payload.length
  let check := fcs (len :: kind :: tag :: payload)
  let hi : Byte := check.extractLsb' 8 8
  let lo : Byte := check.extractLsb' 0 8
  have hbytes : bytes = 0xC3 :: len :: kind :: tag :: (payload ++ [hi] ++ [lo]) := frameBytes_eq kind tag payload
  have hlen : len.toNat = payload.length := by
    rw [show len.toNat = payload.length % 256 from BitVec.toNat_ofNat ..]
    omega
  have hlength' : bytes.length = 1 + (payload ++ [hi]).length + 3 + 1 := by
    simp only [hbytes, List.length_cons, List.length_append, List.length_nil]
    omega
  have hsync : (s.receiving s.receiver (len :: kind :: tag :: (payload ++ [hi] ++ [lo]))).arrive 0xC3 =
      s.receiving ⟨.header, [], 3, 0⟩ (len :: kind :: tag :: (payload ++ [hi] ++ [lo])) :=
    State.arrive_hunt hhunt
  have hbody : len.toNat + 2 = (payload ++ [hi]).length + 1 := by simp [hlen]
  have howed : s.owed = Owed.nothing := (Prod.mk.inj hs).2
  rw [hlength', run_arrives hs hfree (hpending.trans (congrArg _ hbytes)), hsync,
    run_receiving_header hs hfree _ _ _ _ (hlen ▸ hlength), hbody, run_receiving_body hs hfree, run_receiving_cons hs hfree,
    State.arrive_body rfl, State.bodyByte_last rfl]
  refine congrArg _ ((State.endFrame_eq _ len kind tag hi lo payload).trans ?_)
  rw [if_pos (half_eq_append check).symm]
  simp only [State.receiving, howed]
  rfl

/-! ### The receipt (R140, R152) -/

theorem HostCommand.ofCode_eq_some {kind : Byte} {c : HostCommand} : HostCommand.ofCode kind = some c ↔ c.code = kind := by
  refine ⟨fun h => ?_, ?_⟩
  · simpa using List.find?_some h
  · rintro rfl
    cases c <;> rfl

theorem judgeFrame_eq_some {kind : Byte} {len : Nat} {c : HostCommand} :
    judgeFrame kind len = some c ↔ c.code = kind ∧ c.lenOk len = true := by
  cases hcode : HostCommand.ofCode kind with
  | none =>
    have hno : c.code ≠ kind := fun h => by simp [HostCommand.ofCode_eq_some.2 h] at hcode
    simp [judgeFrame, hcode, hno]
  | some d =>
    have hd : ∀ c : HostCommand, c.code = kind ↔ d = c := fun c => by
      rw [← HostCommand.ofCode_eq_some, hcode, Option.some.injEq]
    rw [judgeFrame, hcode, hd]
    cases hlen : d.lenOk len with
    | true => simpa [hlen] using fun h => h ▸ hlen
    | false => simpa [hlen] using fun h => h ▸ hlen

theorem judgeFrame_eq_none {kind : Byte} {len : Nat} :
    judgeFrame kind len = none ↔ ¬ ∃ c : HostCommand, c.code = kind ∧ c.lenOk len = true := by
  simp only [Option.eq_none_iff_forall_ne_some, ne_eq, judgeFrame_eq_some, not_exists]

/-- The receipt of a refused frame. -/
theorem State.receive_of_none {s : State} {kind tag : Byte} {payload : List Byte} (h : judgeFrame kind payload.length = none) :
    s.receive kind tag payload =
      if s.endMute.replySlot then s.endMute.queueReply ⟨tag, kind, .badFrame⟩ else s.endMute.countOverflow := by
  simp only [State.receive, h]

/-- The receipt of a command. -/
theorem State.receive_of_some {s : State} {kind tag : Byte} {payload : List Byte} {c : HostCommand}
    (h : judgeFrame kind payload.length = some c) : s.receive kind tag payload =
      if s.inbox.length < 4 then { s.endMute with inbox := s.inbox ++ [⟨kind, tag, payload, s.mute⟩] }
      else if s.endMute.replySlot then s.endMute.countOverflow.queueReply ⟨tag, kind, .busy⟩
      else s.endMute.countOverflow := by
  simp only [State.receive, h]
  rfl

theorem State.replySlot_iff (s : State) : s.replySlot = true ↔ s.replies.length < 8 := decide_eq_true_iff

/-- Settles O19: the frame is judged, then the inbox and the reply queue are looked at. -/
theorem receiptOfAGoodFrame : Obligations.ReceiptOfAGoodFrame := by
  have hexec : ∀ s : State, s.inReset = false → exec .receipt s = .next s.runReceipt :=
    fun s hs => congrArg _ (State.unlessReset_of_running hs _)
  refine ⟨fun s hs hnone => ?_, fun s kind tag payload hs hreceipt => ?_⟩
  · rw [hexec s hs, State.runReceipt, hnone]
  intro notices t command counted
  let u : State := { s with owed := { s.owed with receipt := none } }
  have hslot : u.endMute.replySlot = true ↔ s.replies.length < 8 := State.replySlot_iff _
  have hcounted : u.endMute.countOverflow = { t with counters := counted } := by
    rw [State.countOverflow, satInc_half]
    rfl
  have hexec : exec .receipt s = .next (u.receive kind tag payload) := by
    rw [hexec s hs, State.runReceipt, hreceipt]
  have hrefused : ¬ command → exec .receipt s = .next (if u.endMute.replySlot then
      u.endMute.queueReply ⟨tag, kind, .badFrame⟩ else u.endMute.countOverflow) := fun hc => by
    rw [hexec, State.receive_of_none (judgeFrame_eq_none.2 hc)]
  have htaken : command → exec .receipt s = .next (if u.inbox.length < 4 then
      { u.endMute with inbox := u.inbox ++ [⟨kind, tag, payload, u.mute⟩] }
      else if u.endMute.replySlot then u.endMute.countOverflow.queueReply ⟨tag, kind, .busy⟩
      else u.endMute.countOverflow) := fun ⟨c, hc⟩ => by
    rw [hexec, State.receive_of_some (judgeFrame_eq_some.2 hc)]
  refine ⟨fun hc h => ?_, fun hc h => ?_, fun hc hroom => ?_, fun hc hfull h => ?_, fun hc hfull h => ?_⟩
  · rw [hrefused hc, if_pos (hslot.2 h)]
    rfl
  · rw [hrefused hc, if_neg fun h' => Nat.not_lt.2 h (hslot.1 h'), hcounted]
  · rw [htaken hc, if_pos hroom]
    rfl
  · rw [htaken hc, if_neg (Nat.not_lt.2 hfull), if_pos (hslot.2 h), hcounted]
    rfl
  · rw [htaken hc, if_neg (Nat.not_lt.2 hfull), if_neg fun h' => Nat.not_lt.2 h (hslot.1 h'), hcounted]

/-! ### The break (R122, R143, R154, R155) -/

theorem State.any_isSent_iff (s : State) : s.notices.any Notice.isSent = true ↔ ∃ n ∈ s.notices, n.delivery ≠ .queued := by
  simp [Notice.isSent, Notice.isQueued]

/-- Settles O20: a HELD transmitter marks the break already detected. -/
theorem breakMakesOneLinkReset : Obligations.BreakMakesOneLinkReset := by
  intro s hs restarted
  have hbreak : exec .breakDetected s = .next s.detectBreak := congrArg _ (State.act_of_quiet hs _)
  have hend : exec .endOfBreak s = .next s.endBreak := congrArg _ (State.act_of_quiet hs _)
  rw [hbreak, hend]
  refine ⟨fun h => ?_, fun h => congrArg _ (if_pos h), fun h => congrArg _ (if_pos h), fun h => congrArg _ (if_neg h)⟩
  have hnotices : s.restartedNotices =
      if ∃ n ∈ s.notices, n.delivery ≠ .queued then mergeQueued restarted else restarted := by
    rw [State.restartedNotices]
    simp only [State.any_isSent_iff]
    rfl
  rw [State.detectBreak, if_neg h, State.linkReset, hnotices]
  rfl

/-! ### The transmitter (R156, R157) -/

/-- The completion of any frame but the SOFT_RESET reply. -/
theorem State.completeTransmission_sending {s : State} {f : TxFrame} (h : s.transmitter = .sending f)
    (hf : ∀ tag code, f ≠ .reply ⟨tag, code, .softReset⟩) : s.completeTransmission = { s with transmitter := .free } := by
  cases f with
  | notice n => simp only [State.completeTransmission, h]
  | reply r =>
    obtain ⟨tag, code, body⟩ := r
    cases body with
    | softReset => exact absurd rfl (hf tag code)
    | _ => simp only [State.completeTransmission, h]

/-- Settles O21: a start by the transmitter and the reply queue, a completion by the transmitter. -/
theorem repliesLeaveInOrder : Obligations.RepliesLeaveInOrder := by
  intro s hs
  have hstart : exec .replyTransmissionStart s = .next s.startReply := congrArg _ (State.act_of_quiet hs _)
  have hcomplete : exec .transmissionCompletion s = .next s.completeTransmission := congrArg _ (State.act_of_quiet hs _)
  rw [hstart, hcomplete]
  refine ⟨fun r rest hfree hreplies => ?_, fun hno => ?_,
    fun f hf hreply => congrArg _ (State.completeTransmission_sending hf hreply), fun hno => ?_⟩
  · simp only [State.startReply, hfree, hreplies]
  · rw [State.startReply]
    split
    case h_1 r rest hfree hreplies => exact absurd hno (by simp [hfree, hreplies])
    case h_2 => rfl
  · cases htx : s.transmitter with
    | sending f => exact absurd htx (hno f)
    | free | held => simp only [State.completeTransmission, htx]

end Sys2Proof.Machine
end

section
/-! PROOFS. The frames on the line: fields as bytes, payload lengths, the layouts of Tables 10-1 and 10-6 to 10-8, and the levels on
TXD. -/

namespace Sys2Proof.Machine

/-! ### Fields as bytes (R174) -/

theorem extractLsb'_eq_byteOf {w : Nat} (x : BitVec w) (k : Nat) : x.extractLsb' k 8 = byteOf (x.toNat / 2 ^ k) := by
  rw [← Nat.shiftRight_eq_div_pow]
  rfl

theorem bytes16_eq (x : Half) : bytes16 x = [byteOf (x.toNat / 256), byteOf x.toNat] := by
  rw [bytes16, extractLsb'_eq_byteOf, extractLsb'_eq_byteOf, Nat.pow_zero, Nat.div_one]
  rfl

theorem bytes16_setWidth (c : Code) : bytes16 (c.setWidth 16) = [byteOf (c.toNat / 256), byteOf c.toNat] := by
  rw [bytes16_eq, BitVec.toNat_setWidth_of_le (by omega)]

theorem bytes16_ofNat (n : Nat) : bytes16 (BitVec.ofNat 16 n) = [byteOf (n / 256), byteOf n] := by
  have hhigh : n % 65536 / 256 % 256 = n / 256 % 256 := by omega
  have hlow : n % 65536 % 256 = n % 256 := by omega
  rw [bytes16_eq, BitVec.toNat_ofNat]
  simp only [byteOf, ← BitVec.toNat_inj, List.cons.injEq, BitVec.toNat_ofNat, and_true]
  exact ⟨hhigh, hlow⟩

theorem bytes32_eq (x : BitVec 32) : bytes32 x =
    [byteOf (x.toNat / 65536 / 256), byteOf (x.toNat / 65536), byteOf (x.toNat / 256), byteOf x.toNat] := by
  rw [bytes32, extractLsb'_eq_byteOf, extractLsb'_eq_byteOf, extractLsb'_eq_byteOf, extractLsb'_eq_byteOf, Nat.pow_zero,
    Nat.div_one, Nat.div_div_eq_div_mul]
  rfl

theorem byteOfBool_eq (b : Bool) : byteOfBool b = byteOf b.toNat := by cases b <;> rfl

theorem bits4_eq (b0 b1 b2 b3 : Bool) :
    bits4 b0 b1 b2 b3 = byteOf (b0.toNat + 2 * b1.toNat + 4 * b2.toNat + 8 * b3.toNat) := by
  revert b0 b1 b2 b3
  decide

/-- The kind, suspect and follow-up bits of a record that is no CHECK. -/
theorem recordFlags_eq (kind : Byte) (hkind : kind = 0 ∨ kind = 1) (suspect followUp : Bool) :
    kind ||| (byteOfBool suspect <<< 4) ||| (byteOfBool followUp <<< 5) =
      byteOf (kind.toNat + 16 * suspect.toNat + 32 * followUp.toNat) := by
  revert suspect followUp
  obtain rfl | rfl := hkind <;> decide

/-- The kind, failed, suspect and follow-up bits of a CHECK record. -/
theorem checkFlags_eq (failed suspect followUp : Bool) :
    (2 ||| (byteOfBool failed <<< 6)) ||| (byteOfBool suspect <<< 4) ||| (byteOfBool followUp <<< 5) =
      byteOf (2 + 64 * failed.toNat + 16 * suspect.toNat + 32 * followUp.toNat) := by
  revert failed suspect followUp
  decide

/-! ### Lengths (R147) -/

theorem length_flatMap_of_length_eq {α β : Type} {f : α → List β} {n : Nat} (h : ∀ x, (f x).length = n) (l : List α) :
    (l.flatMap f).length = n * l.length := by
  simp [List.length_flatMap, h, Nat.mul_comm]

theorem length_bytes16 (x : Half) : (bytes16 x).length = 2 := rfl

theorem length_bytes32 (x : BitVec 32) : (bytes32 x).length = 4 := rfl

theorem length_valueBytes (v : Option Code) : (valueBytes v).length = 2 := by cases v <;> rfl

theorem length_windowBytes (w : Option Window) : (windowBytes w).length = 6 := by cases w <;> rfl

theorem length_definition_bytes (d : Definition) : d.bytes.length = 16 := by
  simp [Definition.bytes, length_bytes16, length_windowBytes]

theorem length_candidateBytes (c : Option Candidate) : (candidateBytes c).length = 2 := by cases c <;> rfl

theorem length_modeBytes (m : Option AdaptiveMode) : (modeBytes m).length = 2 := by
  cases m with
  | none => rfl
  | some m => cases m <;> rfl

theorem Probe.bytes_of_free {p : Probe} (h : p.state = .free) : p.bytes = [p.state.code, p.generation] := by
  simp only [Probe.bytes, h]

theorem Probe.bytes_of_none {p : Probe} (h : p.defn = none) : p.bytes = [p.state.code, p.generation] := by
  cases hstate : p.state <;> simp only [Probe.bytes, h, hstate]

theorem Probe.bytes_of_defined {p : Probe} {d : Definition} (h : p.state ≠ .free) (hd : p.defn = some d) : p.bytes =
    [p.state.code, p.generation] ++ d.bytes ++
      [bits4 p.nextDue.isSome p.overrunLatch p.watermarkReached false] ++ bytes32 (p.nextDue.getD 0) ++
      bytes16 p.overruns ++ [p.confirmed.code] ++ candidateBytes p.candidate ++ modeBytes p.mode ++
      valueBytes p.lastValue ++ bytes16 p.runs ++ [byteOf p.ring.length] ++ bytes16 p.overwritten := by
  cases hstate : p.state with
  | free => exact absurd hstate h
  | defined | armed => simp only [Probe.bytes, hd, hstate]

theorem length_probe_bytes (p : Probe) : p.bytes.length ≤ 37 := by
  by_cases hfree : p.state = .free
  · simp [Probe.bytes_of_free hfree]
  cases hd : p.defn with
  | none => simp [Probe.bytes_of_none hd]
  | some d =>
    simp [Probe.bytes_of_defined hfree hd, length_definition_bytes, length_bytes16, length_bytes32, length_candidateBytes,
      length_modeBytes, length_valueBytes]

theorem length_record_bytes (h : HistoryRecord) : h.bytes.length = 8 := by
  simp [HistoryRecord.bytes, length_bytes32, length_valueBytes]

/-- No reply carries more than 56 bytes, with at most the six records of R103. -/
theorem length_reply_payload (r : Reply)
    (hsix : ∀ fill overwritten records, r.body = .history fill overwritten records → records.length ≤ 6) :
    r.payload.length ≤ 56 := by
  have hdata : r.body.data.length ≤ 54 := by
    cases hbody : r.body with
    | probe p => exact (length_probe_bytes p).trans (by omega)
    | history fill overwritten records =>
      have := hsix fill overwritten records hbody
      have hrecords := length_flatMap_of_length_eq length_record_bytes records
      simp only [ReplyBody.data, List.length_append, List.length_cons, List.length_nil, length_bytes16, hrecords]
      omega
    | _ => simp [ReplyBody.data, HelloReport.bytes, length_bytes16, length_bytes32]
  simp only [Reply.payload, List.length_append, List.length_cons, List.length_nil]
  omega

theorem length_reason_bytes (r : Reason) : r.bytes.length = 3 := by cases r <;> rfl

theorem length_notice_payload (n : Notice) : n.payload.length ≤ 56 := by
  have howner : n.content.ownerBytes.length = 2 := by cases n.content <;> rfl
  have hpart : n.content.bytes.length ≤ 6 := by
    cases n.content <;> simp [NoticeContent.bytes, length_valueBytes, length_bytes16, length_reason_bytes]
  simp only [Notice.payload, List.length_append, List.length_cons, List.length_nil, length_bytes16, length_bytes32]
  omega

theorem length_frameBytes (kind tag : Byte) (payload : List Byte) :
    (frameBytes kind tag payload).length = payload.length + 6 := by
  simp [frameBytes, length_bytes16]

/-- A frame with its check sequence as a number. -/
theorem frameBytes_eq_checked (kind tag : Byte) (payload : List Byte) :
    let checked := byteOf payload.length :: kind :: tag :: payload
    frameBytes kind tag payload = 0xC3 :: checked ++ [byteOf ((fcs checked).toNat / 256), byteOf (fcs checked).toNat] := by
  intro checked
  rw [← bytes16_eq]
  rfl

/-! ### Levels on TXD (R145, R156) -/

theorem length_flatMap_levels (bytes : List Byte) :
    (bytes.flatMap fun b => (Character.ofByte b).levels).length = 10 * bytes.length :=
  length_flatMap_of_length_eq (fun b => Character.length_levels (Character.ofByte b)) bytes

theorem Character.levels_ofByte (b : Byte) : (Character.ofByte b).levels =
    [false, b.getLsbD 0, b.getLsbD 1, b.getLsbD 2, b.getLsbD 3, b.getLsbD 4, b.getLsbD 5, b.getLsbD 6, b.getLsbD 7, true] :=
  rfl

/-- The ten levels of the byte that `before` precedes. -/
theorem TxFrame.levels_getD {f : TxFrame} {before after : List Byte} {b : Byte} (h : f.wire = before ++ b :: after) {k : Nat}
    (hk : k < 10) : f.levels.getD (10 * before.length + k) true = (Character.ofByte b).levels.getD k true := by
  have hlen : 10 * before.length = (before.flatMap fun b => (Character.ofByte b).levels).length :=
    (length_flatMap_levels before).symm
  rw [TxFrame.levels, h, List.flatMap_append, hlen, List.getD_append_right _ _ _ _ (Nat.le_add_right _ _),
    Nat.add_sub_cancel_left, List.flatMap_cons, List.getD_append _ _ _ _ (by simpa using hk)]

theorem Character.getLsbD_byte (c : Character) (k : Fin 8) : c.byte.getLsbD k.val = c.data[k] := by
  rw [Character.byte, BitVec.getLsbD_cast, BitVec.getLsbD_ofBoolListLE]
  simp

/-- Settles O22: the layouts one after the other, each field as its bytes. -/
theorem framesOnTheLine : Obligations.FramesOnTheLine := by
  unfold Obligations.FramesOnTheLine
  intro one two four bits classes probeState scheduler engine health cause verdict raw value limits definition record answers
    notifies framed
  have hanswers : ∀ {body : ReplyBody} {status data}, body.status = status → body.data = data → answers body status data :=
    fun hstatus hdata tag code => by rw [← hstatus, ← hdata]; rfl
  have hnotifies : ∀ {content : NoticeContent} {cls owner part}, content.cls.code = cls → content.ownerBytes = owner →
      content.bytes = part → notifies content cls owner part := fun hcls howner hpart n hn => by
    rw [Notice.payload, hn, hcls, howner, hpart, bytes16_eq, bytes32_eq]
    rfl
  have hframed : ∀ {f : TxFrame} {kind tag payload}, f.wire = frameBytes kind tag payload → payload.length ≤ 56 →
      framed f kind tag payload := fun hwire hlen =>
    ⟨hlen, (congrArg _ hwire).trans (length_frameBytes _ _ _), hwire.trans (frameBytes_eq_checked _ _ _)⟩
  have hvalue : ∀ v, valueBytes v = value v := fun v => by
    cases v with
    | none => rfl
    | some code => exact bytes16_setWidth code
  have hraw : ∀ r, rawCode r = raw r := fun r => by
    cases r with
    | none => rfl
    | some r => cases r <;> rfl
  have hlimits : ∀ w, windowBytes w = limits w := fun w => by
    cases w with
    | none => rfl
    | some w =>
      rw [windowBytes, bytes16_setWidth, bytes16_setWidth]
      rfl
  have hdefinition : ∀ d : Definition, d.bytes = definition d := fun d => by
    rw [Definition.bytes, bytes16_eq, bytes16_eq, hlimits, NotifySet.code, bits4_eq]
    obtain ⟨channel, style, period, phase, cls, depth, watermark, notify⟩ := d
    cases style <;> rfl
  have hrecord : ∀ h : HistoryRecord, h.bytes = record h := fun h => by
    obtain ⟨stamp, data, suspect, followUp⟩ := h
    cases data with
    | level code r =>
      simp only [HistoryRecord.bytes, RunData.parts, bytes32_eq, recordFlags_eq 0 (.inl rfl), hraw, hvalue]
      rfl
    | window r =>
      simp only [HistoryRecord.bytes, RunData.parts, bytes32_eq, recordFlags_eq 1 (.inr rfl), hraw, hvalue]
      rfl
    | check code failed =>
      simp only [HistoryRecord.bytes, RunData.parts, bytes32_eq, checkFlags_eq, hraw, hvalue]
      rfl
  refine ⟨fun r hr => hframed rfl (length_reply_payload r hr), fun n => hframed rfl (length_notice_payload n),
    hanswers rfl rfl, fun st => hanswers rfl rfl, hanswers rfl rfl, fun k => hanswers rfl rfl, hanswers rfl rfl,
    fun st => hanswers rfl rfl, fun st => hanswers rfl rfl, fun free => hanswers rfl (bytes16_ofNat free), hanswers rfl rfl,
    hanswers rfl rfl, fun i => hanswers rfl rfl, hanswers rfl rfl, fun h => hanswers rfl ?_,
    fun gen free => hanswers rfl (congrArg (gen :: ·) (bytes16_ofNat free)), fun gen => hanswers rfl rfl,
    fun gen due => hanswers rfl (congrArg (gen :: 1 :: ·) (bytes32_eq due)), fun gen => hanswers rfl rfl,
    fun free => hanswers rfl (bytes16_ofNat free), fun p hfree => hanswers rfl ?_, fun p d hfree hd => hanswers rfl ?_,
    fun i code suspect => hanswers rfl ?_, fun v => hanswers rfl (bytes32_eq v), fun v st => hanswers rfl ?_,
    fun fill overwritten records => hanswers rfl ?_, fun removed notFound => hanswers rfl rfl, fun set n => hanswers rfl ?_,
    fun timeout mute rate sent => hanswers rfl ?_, fun tolerance h => hanswers rfl ?_, fun e dropped => hanswers rfl ?_,
    hanswers rfl rfl, fun i gen previous new v suspect merged => hnotifies rfl rfl ?_,
    fun i gen fill depth => hnotifies rfl rfl rfl, fun i gen overruns => hnotifies rfl rfl (bytes16_eq overruns),
    fun c quiesce => hnotifies rfl rfl ?_, hnotifies rfl rfl rfl, hnotifies rfl rfl rfl,
    hnotifies rfl rfl rfl, hnotifies rfl rfl rfl,
    fun f => length_flatMap_levels f.wire, fun s f before after b hs hf hwire => ?_, Character.getLsbD_byte, fun s k hs => ?_⟩
  · simp only [ReplyBody.data, HelloReport.bytes, bytes16_ofNat, ClassSet.code, bits4_eq]
    rfl
  · rw [ReplyBody.data, Probe.bytes_of_free hfree, hfree]
    rfl
  · have hdue : (p.nextDue.getD 0).toNat = match p.nextDue with | none => 0 | some due => due.toNat := by
      cases p.nextDue <;> rfl
    have hcandidate : candidateBytes p.candidate =
        match p.candidate with | none => [0xFF, 0] | some k => [raw (some k.verdict), one k.count] := by
      cases p.candidate with
      | none => rfl
      | some k => exact congrArg (fun code => [code, one k.count]) (hraw (some k.verdict))
    rw [ReplyBody.data, Probe.bytes_of_defined hfree hd, hdefinition, hvalue, hcandidate, bits4_eq, bytes32_eq, hdue,
      bytes16_eq, bytes16_eq, bytes16_eq]
    rfl
  · rw [ReplyBody.data, bytes16_setWidth, byteOfBool_eq]
    rfl
  · rw [ReplyBody.data, bytes32_eq]
    rfl
  · rw [ReplyBody.data, bytes16_eq, funext hrecord]
    rfl
  · rw [ReplyBody.data, ClassSet.code, bits4_eq]
    rfl
  · rw [ReplyBody.data, byteOfBool_eq, bytes32_eq]
    cases rate <;> rfl
  · cases h with
    | good => rfl
    | suspect onePassed => cases onePassed <;> rfl
  · simp only [ReplyBody.data, bytes16_eq, bytes32_eq]
    rfl
  · rw [NoticeContent.bytes, hvalue, byteOfBool_eq]
    cases new <;> rfl
  · rw [NoticeContent.bytes, Reason.bytes, byteOfBool_eq]
    rfl
  · rw [← Character.levels_ofByte]
    have hlevel : ∀ k < 10, s.txdHigh (10 * before.length + k) = (Character.ofByte b).levels.getD k true := fun k hk => by
      simp only [State.txdHigh, hs, hf]
      exact TxFrame.levels_getD hwire hk
    rw [List.map_congr_left fun k hk => hlevel k (List.mem_range.1 hk)]
    rfl
  · rw [State.txdHigh]
    split
    case h_1 f hrunning htx => exact absurd hs (by simp [hrunning, htx])
    case h_2 => rfl

end Sys2Proof.Machine
end
